-- ==== Sys2Proof/Word.lean ====
section
/-! DEFINITION. The word types of the pico-scale display core (spec R10, R11, R82). -/
namespace Sys2Proof

/-- A byte; bit `i` has weight `2^i` (R10). -/
abbrev Byte := BitVec 8

/-- The 16-bit pattern of an `s16` operand (R11, R82). -/
abbrev S16 := BitVec 16

/-- A `bit` operand or a line level: 0 or 1 (R11, R32). -/
abbrev Bit := BitVec 1

end Sys2Proof
end

