-- ==== Sys2Proof/Config.lean ====
section
/-! DEFINITION. The configuration of one PSDC (spec R7, R8, R23, R25, R26), fixed at construction, and the free
values: constants without a body that stand for what the spec leaves unspecified. -/
namespace Sys2Proof

/-- The two bus transports (R7, conflict C7). -/
inductive Transport where
  /-- register-addressed: device address, control byte, no reset pulse -/
  | reg
  /-- chip select with a data/command line and a reset line -/
  | cs
  deriving DecidableEq, Repr

/-- The eighteen display-controller byte values `OPC.*` (R93, C9): seventeen opcodes and the encoding of
"horizontal". The spec keeps them as parameters. -/
structure Opc where
  setDisp : Byte
  setMemAddr : Byte
  modeHorizontal : Byte
  setStartLine : Byte
  setSegRemap : Byte
  setMuxRatio : Byte
  setComOutDir : Byte
  setDispOffset : Byte
  setComPinCfg : Byte
  setClkDiv : Byte
  setPrecharge : Byte
  setVcomDesel : Byte
  setContrast : Byte
  setEntireOn : Byte
  setNormInv : Byte
  setChargePump : Byte
  setColAddr : Byte
  setPageAddr : Byte
  deriving DecidableEq, Repr

/-- The eight row bytes of a pattern, row 0 the top row, bit 7 the leftmost pixel (R25). -/
abbrev Rows := Vector Byte 8

/-- A table of patterns by character code; the first entry of a code counts, a code without an entry is absent. -/
abbrev GlyphTable := List (Byte × Rows)

/-- The clock configuration of the chip-select transport (R33). -/
structure ClkCfg where
  /-- frequency in hertz -/
  hz : Nat
  /-- the clock idles low -/
  idleLow : Bool
  /-- data is sampled on the first edge -/
  firstEdge : Bool
  deriving DecidableEq, Repr, Inhabited

/-- The parameters of one PSDC: R7 (`w` to `extVcc`), R8 (the rest), R25 and R26 (the two tables). -/
structure Cfg where
  /-- `W`, framebuffer width in pixels -/
  w : Nat
  /-- `H`, framebuffer height in pixels -/
  h : Nat
  /-- `TRANSPORT` -/
  transport : Transport
  /-- `EXT_VCC` -/
  extVcc : Bool
  /-- `BUS_ADDR`, the device address on the `REG` transport (7 bits: R141, log 20) -/
  busAddr : BitVec 7
  /-- `CTRL_CMD` -/
  ctrlCmd : Byte
  /-- `CTRL_DATA` -/
  ctrlData : Byte
  /-- `OPC.*` -/
  opc : Opc
  /-- `SCROLL_FILL` -/
  scrollFill : Bit
  /-- `TEXT_ADV` -/
  textAdv : Int
  /-- `DOT_SHIFT` -/
  dotShift : Int
  /-- `DOT_LOOKAHEAD` -/
  dotLookahead : Int
  /-- `DOT_ADV` -/
  dotAdv : Int
  /-- `CS_ACTIVE`, the electrical level of an asserted chip select -/
  csActive : Bit
  /-- `SERIAL_MSB_FIRST` -/
  serialMsbFirst : Bool
  /-- `BUS_TIMEOUT`; `none` is no timeout. That the number counts microseconds is the model's choice, no rule names a
  unit (DESIGN CHOICE, log 21); no definition reads the number -/
  busTimeout : Option Nat
  /-- `GLYPH` -/
  glyph : GlyphTable
  /-- `FONT8`: code `ch`, column `c`, row `r` is bit `7 - c` of row byte `r` of `ch`'s entry, 0 without an entry -/
  font8 : GlyphTable
  deriving DecidableEq, Repr

/-- FREE VALUE (U1, R251): `Config.fbAt n i` is byte `i` of a framebuffer nothing has written since reset draw `n`. -/
opaque Config.fbAt : Nat → Nat → Byte

/-- FREE VALUE (U2, R36): byte `k` of `TEMP` after reset draw `n`. -/
opaque Config.tempAt : Nat → Nat → Byte

/-- FREE VALUE (U3, R36): `CLKCFG` after reset draw `n`. -/
opaque Config.clkAt : Nat → ClkCfg

/-- FREE VALUE (U4, U5, R41): what the read-back port returns while busy or outside the framebuffer, at draw `n`. -/
opaque Config.portByte : Nat → Byte

/-- FREE VALUE (U13, R25): the row bytes of the characters the spec says are in the glyph table. -/
opaque Config.glyphRows : Byte → Rows

/-- FREE VALUE (U13, R25): the further entries of the glyph table. -/
opaque Config.moreGlyphs : GlyphTable

/-- FREE VALUE (U14, R26): the unscaled font. -/
opaque Config.fontTable : GlyphTable

end Sys2Proof
end

