-- ==== Sys2Proof/Syntax.lean ====
section
/-! DEFINITION. The instructions: the twelve host operations (spec R3, R83) and the seventeen controller commands the
serializer emits (R91, R93), one constructor per row of spec/opcode_table.json. -/
namespace Sys2Proof

inductive Instr where
  /-- FILL color (R111) -/
  | fill (color : Bit)
  /-- SETPX x, y, color (R113) -/
  | setpx (x y : S16) (color : Bit)
  /-- SCROLL dx, dy (R114) -/
  | scroll (dx dy : S16)
  /-- PWRON (R160) -/
  | pwron
  /-- INIT (R161) -/
  | init
  /-- SHOW (R163) -/
  | showFrame
  /-- CONTRAST v (R164) -/
  | contrast (v : Byte)
  /-- INVERT inv (R165) -/
  | invert (inv : Bit)
  /-- PWROFF (R166) -/
  | pwroff
  /-- GLYPHS 'c', x, y, color, scale (R191) -/
  | glyphs (ch : Byte) (x y : S16) (color : Bit) (scale : Byte)
  /-- TEXTS "text", x, y (R192) -/
  | texts (text : List Byte) (x y : S16)
  /-- TEXT "string", x, y, color (R194) -/
  | text (text : List Byte) (x y : S16) (color : Bit)
  /-- OPC.SET_DISP: 0 = off, 1 = on (R93) -/
  | setDisp (on : Bit)
  /-- OPC.SET_MEM_ADDR mode (R93) -/
  | setMemAddr (mode : Byte)
  /-- OPC.SET_START_LINE line (R93) -/
  | setStartLine (line : BitVec 6)
  /-- OPC.SET_SEG_REMAP remap (R93) -/
  | setSegRemap (remap : Bit)
  /-- OPC.SET_MUX_RATIO ratio (R93) -/
  | setMuxRatio (ratio : Byte)
  /-- OPC.SET_COM_OUT_DIR direction, bit 3 of the byte (R93) -/
  | setComOutDir (dir : Bit)
  /-- OPC.SET_DISP_OFFSET offset (R93) -/
  | setDispOffset (offset : Byte)
  /-- OPC.SET_COM_PIN_CFG configuration (R93) -/
  | setComPinCfg (pins : Byte)
  /-- OPC.SET_CLK_DIV divide ratio (R93) -/
  | setClkDiv (ratio : Byte)
  /-- OPC.SET_PRECHARGE period (R93) -/
  | setPrecharge (period : Byte)
  /-- OPC.SET_VCOM_DESEL level (R93) -/
  | setVcomDesel (level : Byte)
  /-- OPC.SET_CONTRAST value (R93) -/
  | setContrast (value : Byte)
  /-- OPC.SET_ENTIRE_ON, entire display on follows RAM (R93) -/
  | setEntireOn
  /-- OPC.SET_NORM_INV: 0 = normal, 1 = inverted (R93) -/
  | setNormInv (inv : Bit)
  /-- OPC.SET_CHARGE_PUMP setting (R93) -/
  | setChargePump (setting : Byte)
  /-- OPC.SET_COL_ADDR first, last (R93) -/
  | setColAddr (first last : Byte)
  /-- OPC.SET_PAGE_ADDR first, last (R93) -/
  | setPageAddr (first last : Byte)
  deriving DecidableEq, Repr

/-- The row's mnemonic in spec/opcode_table.json. -/
def Instr.mnemonic : Instr → String
  | .fill _ => "FILL"
  | .setpx _ _ _ => "SETPX"
  | .scroll _ _ => "SCROLL"
  | .pwron => "PWRON"
  | .init => "INIT"
  | .showFrame => "SHOW"
  | .contrast _ => "CONTRAST"
  | .invert _ => "INVERT"
  | .pwroff => "PWROFF"
  | .glyphs _ _ _ _ _ => "GLYPHS"
  | .texts _ _ _ => "TEXTS"
  | .text _ _ _ _ => "TEXT"
  | .setDisp _ => "OPC.SET_DISP"
  | .setMemAddr _ => "OPC.SET_MEM_ADDR"
  | .setStartLine _ => "OPC.SET_START_LINE"
  | .setSegRemap _ => "OPC.SET_SEG_REMAP"
  | .setMuxRatio _ => "OPC.SET_MUX_RATIO"
  | .setComOutDir _ => "OPC.SET_COM_OUT_DIR"
  | .setDispOffset _ => "OPC.SET_DISP_OFFSET"
  | .setComPinCfg _ => "OPC.SET_COM_PIN_CFG"
  | .setClkDiv _ => "OPC.SET_CLK_DIV"
  | .setPrecharge _ => "OPC.SET_PRECHARGE"
  | .setVcomDesel _ => "OPC.SET_VCOM_DESEL"
  | .setContrast _ => "OPC.SET_CONTRAST"
  | .setEntireOn => "OPC.SET_ENTIRE_ON"
  | .setNormInv _ => "OPC.SET_NORM_INV"
  | .setChargePump _ => "OPC.SET_CHARGE_PUMP"
  | .setColAddr _ _ => "OPC.SET_COL_ADDR"
  | .setPageAddr _ _ => "OPC.SET_PAGE_ADDR"

/-- The twelve host operations (R3, "No other operation exists"); the rest are commands the serializer emits. -/
def Instr.isHost : Instr → Bool
  | .fill _ | .setpx _ _ _ | .scroll _ _ | .pwron | .init | .showFrame | .contrast _ | .invert _ | .pwroff
  | .glyphs _ _ _ _ _ | .texts _ _ _ | .text _ _ _ _ => true
  | .setDisp _ | .setMemAddr _ | .setStartLine _ | .setSegRemap _ | .setMuxRatio _ | .setComOutDir _
  | .setDispOffset _ | .setComPinCfg _ | .setClkDiv _ | .setPrecharge _ | .setVcomDesel _ | .setContrast _
  | .setEntireOn | .setNormInv _ | .setChargePump _ | .setColAddr _ _ | .setPageAddr _ _ => false

/-- CLEAR = FILL 0 (R98). -/
def Instr.clear : Instr := .fill 0

/-- CLRPX x, y = SETPX x, y, 0 (R98). -/
def Instr.clrpx (x y : S16) : Instr := .setpx x y 0

/-- CONSTRUCT = PWRON then INIT (R98). -/
def Instr.construct : List Instr := [.pwron, .init]

/-- Characters of a string operand as text (R96, R97). -/
def renderChars (cs : List Byte) : String :=
  String.ofList (cs.map fun c => Char.ofNat c.toNat)

/-- The written form of a host operation (R97): mnemonic and operands in the document's argument order, numbers in
decimal. A controller command has no written form in R97; its mnemonic stands for it. -/
def Instr.render : Instr → String
  | .fill c => "FILL " ++ toString c.toNat
  | .setpx x y c => "SETPX " ++ toString x.toInt ++ ", " ++ toString y.toInt ++ ", " ++ toString c.toNat
  | .scroll dx dy => "SCROLL " ++ toString dx.toInt ++ ", " ++ toString dy.toInt
  | .contrast v => "CONTRAST " ++ toString v.toNat
  | .invert b => "INVERT " ++ toString b.toNat
  | .glyphs ch x y c sc =>
    "GLYPHS '" ++ renderChars [ch] ++ "', " ++ toString x.toInt ++ ", " ++ toString y.toInt ++ ", "
      ++ toString c.toNat ++ ", " ++ toString sc.toNat
  | .texts t x y => "TEXTS \"" ++ renderChars t ++ "\", " ++ toString x.toInt ++ ", " ++ toString y.toInt
  | .text t x y c =>
    "TEXT \"" ++ renderChars t ++ "\", " ++ toString x.toInt ++ ", " ++ toString y.toInt ++ ", " ++ toString c.toNat
  | .pwron => "PWRON"
  | .init => "INIT"
  | .showFrame => "SHOW"
  | .pwroff => "PWROFF"
  | .setDisp n => (Instr.setDisp n).mnemonic
  | .setMemAddr m => (Instr.setMemAddr m).mnemonic
  | .setStartLine l => (Instr.setStartLine l).mnemonic
  | .setSegRemap r => (Instr.setSegRemap r).mnemonic
  | .setMuxRatio p => (Instr.setMuxRatio p).mnemonic
  | .setComOutDir d => (Instr.setComOutDir d).mnemonic
  | .setDispOffset p => (Instr.setDispOffset p).mnemonic
  | .setComPinCfg p => (Instr.setComPinCfg p).mnemonic
  | .setClkDiv p => (Instr.setClkDiv p).mnemonic
  | .setPrecharge p => (Instr.setPrecharge p).mnemonic
  | .setVcomDesel p => (Instr.setVcomDesel p).mnemonic
  | .setContrast p => (Instr.setContrast p).mnemonic
  | .setEntireOn => Instr.setEntireOn.mnemonic
  | .setNormInv i => (Instr.setNormInv i).mnemonic
  | .setChargePump p => (Instr.setChargePump p).mnemonic
  | .setColAddr a b => (Instr.setColAddr a b).mnemonic
  | .setPageAddr a b => (Instr.setPageAddr a b).mnemonic

end Sys2Proof
end

