-- ==== Sys2Proof/WellFormed.lean ====
section
/-! DEFINITION. Which instructions the packet encoding can carry (spec R82, R85). Operand widths are in the types; what
is left to check is the length of a string operand. -/
namespace Sys2Proof

/-- A string operand has at most 255 characters: its length is a `u8` (R82, R85). -/
def wfText (t : List Byte) : Bool := decide (t.length ≤ 255)

/-- The instruction has an encoding. -/
def Instr.wellFormed : Instr → Bool
  | .texts t _ _ => wfText t
  | .text t _ _ _ => wfText t
  | .fill _ | .setpx _ _ _ | .scroll _ _ | .pwron | .init | .showFrame | .contrast _ | .invert _ | .pwroff
  | .glyphs _ _ _ _ _ => true
  | .setDisp _ | .setMemAddr _ | .setStartLine _ | .setSegRemap _ | .setMuxRatio _ | .setComOutDir _
  | .setDispOffset _ | .setComPinCfg _ | .setClkDiv _ | .setPrecharge _ | .setVcomDesel _ | .setContrast _
  | .setEntireOn | .setNormInv _ | .setChargePump _ | .setColAddr _ _ | .setPageAddr _ _ => true

end Sys2Proof
end

