-- ==== Sys2Proof/Decode.lean ====
section
/-! DEFINITION. The decoder of host packets (spec R81 to R90), of controller commands (R91, R93), and, after them, the
encoders. Both decoders are total on any bytes and reject by name. -/
namespace Sys2Proof

/-- Why bytes are no instruction. -/
inductive Reject where
  /-- a first byte outside the twelve opcodes (R88) -/
  | reservedOpcode (b : Byte)
  /-- a `bit` operand other than 00 and 01 (R89) -/
  | reservedBit (b : Byte)
  /-- a first byte that is no controller command of R93 -/
  | unknownCommand (b : Byte)
  deriving DecidableEq, Repr

/-- What the bytes read so far amount to. -/
inductive Parse where
  /-- an instruction, and the bytes after it -/
  | complete (i : Instr) (rest : List Byte)
  /-- more bytes are needed (R86: the sequencer stays in COLLECT) -/
  | incomplete
  /-- illegal, at the byte that shows it (R88, R89) -/
  | illegal (r : Reject)
  deriving DecidableEq, Repr

/-- The instruction of a complete parse. -/
def Parse.instr? : Parse → Option Instr
  | .complete i _ => some i
  | .incomplete => none
  | .illegal _ => none

/-- An `s16` operand, low byte first (R82). -/
def s16 (lo hi : Byte) : S16 := hi ++ lo

/-- A `bit` operand: 00 and 01 are legal, every other byte is refused as it arrives (R82, R89). -/
def withBit (b : Byte) (k : Bit → Parse) : Parse :=
  if b = 0#8 then k 0#1 else if b = 1#8 then k 1#1 else .illegal (.reservedBit b)

/-- Operand bytes of FILL (R83). -/
def parseFill : List Byte → Parse
  | c :: r => withBit c fun c => .complete (.fill c) r
  | [] => .incomplete

/-- Operand bytes of SETPX (R83). -/
def parseSetpx : List Byte → Parse
  | x0 :: x1 :: y0 :: y1 :: c :: r => withBit c fun c => .complete (.setpx (s16 x0 x1) (s16 y0 y1) c) r
  | _ => .incomplete

/-- Operand bytes of SCROLL (R83). -/
def parseScroll : List Byte → Parse
  | x0 :: x1 :: y0 :: y1 :: r => .complete (.scroll (s16 x0 x1) (s16 y0 y1)) r
  | _ => .incomplete

/-- Operand bytes of CONTRAST (R83). -/
def parseContrast : List Byte → Parse
  | v :: r => .complete (.contrast v) r
  | [] => .incomplete

/-- Operand bytes of INVERT (R83). -/
def parseInvert : List Byte → Parse
  | b :: r => withBit b fun b => .complete (.invert b) r
  | [] => .incomplete

/-- Operand bytes of GLYPHS (R83): the colour is checked before the scale arrives. -/
def parseGlyphs : List Byte → Parse
  | ch :: x0 :: x1 :: y0 :: y1 :: c :: r => withBit c fun c =>
      match r with
      | sc :: r => .complete (.glyphs ch (s16 x0 x1) (s16 y0 y1) c sc) r
      | [] => .incomplete
  | _ => .incomplete

/-- Operand bytes of TEXTS (R83): the byte `n` says how many characters follow (R86, R87). -/
def parseTexts : List Byte → Parse
  | x0 :: x1 :: y0 :: y1 :: n :: r =>
    if r.length < n.toNat then .incomplete
    else .complete (.texts (r.take n.toNat) (s16 x0 x1) (s16 y0 y1)) (r.drop n.toNat)
  | _ => .incomplete

/-- Operand bytes of TEXT (R83): the colour is checked before `n` arrives. -/
def parseText : List Byte → Parse
  | x0 :: x1 :: y0 :: y1 :: c :: r => withBit c fun c =>
      match r with
      | n :: r =>
        if r.length < n.toNat then .incomplete
        else .complete (.text (r.take n.toNat) (s16 x0 x1) (s16 y0 y1) c) (r.drop n.toNat)
      | [] => .incomplete
  | _ => .incomplete

/-- The host packet decoder (R83, R84, R86): the opcode byte is checked at once, each `bit` operand as it arrives. -/
def parsePacket : List Byte → Parse
  | [] => .incomplete
  | op :: a =>
    if op = 0x01#8 then parseFill a
    else if op = 0x02#8 then parseSetpx a
    else if op = 0x03#8 then parseScroll a
    else if op = 0x10#8 then .complete .pwron a
    else if op = 0x11#8 then .complete .init a
    else if op = 0x12#8 then .complete .showFrame a
    else if op = 0x13#8 then parseContrast a
    else if op = 0x14#8 then parseInvert a
    else if op = 0x15#8 then .complete .pwroff a
    else if op = 0x20#8 then parseGlyphs a
    else if op = 0x21#8 then parseTexts a
    else if op = 0x22#8 then parseText a
    else .illegal (.reservedOpcode op)

/-- The default values of `OPC.*` (R93; general knowledge in the spec's own words: log 3). -/
def Opc.std : Opc where
  setDisp := 0xAE
  setMemAddr := 0x20
  modeHorizontal := 0x00
  setStartLine := 0x40
  setSegRemap := 0xA0
  setMuxRatio := 0xA8
  setComOutDir := 0xC0
  setDispOffset := 0xD3
  setComPinCfg := 0xDA
  setClkDiv := 0xD5
  setPrecharge := 0xD9
  setVcomDesel := 0xDB
  setContrast := 0x81
  setEntireOn := 0xA4
  setNormInv := 0xA6
  setChargePump := 0x8D
  setColAddr := 0x21
  setPageAddr := 0x22

/-- A command with one parameter byte (R91). -/
def oneParam (k : Byte → Instr) : List Byte → Parse
  | p :: r => .complete (k p) r
  | [] => .incomplete

/-- A command with two parameter bytes (R91). -/
def twoParams (k : Byte → Byte → Instr) : List Byte → Parse
  | a :: b :: r => .complete (k a b) r
  | _ => .incomplete

/-- The controller command a byte sequence starts with (R91, R93): a byte with a field is recognised by the bits the
table's mask keeps. PSDC itself never decodes these bytes; the staging slot of `Machine/Port.lean` and the
informative receiver of R146 do. -/
def parseWire (o : Opc) : List Byte → Parse
  | [] => .incomplete
  | b :: r =>
    if b &&& 0xFE#8 = o.setDisp &&& 0xFE#8 then .complete (.setDisp (b.extractLsb' 0 1)) r
    else if b = o.setMemAddr then oneParam .setMemAddr r
    else if b &&& 0xC0#8 = o.setStartLine &&& 0xC0#8 then .complete (.setStartLine (b.extractLsb' 0 6)) r
    else if b &&& 0xFE#8 = o.setSegRemap &&& 0xFE#8 then .complete (.setSegRemap (b.extractLsb' 0 1)) r
    else if b = o.setMuxRatio then oneParam .setMuxRatio r
    else if b &&& 0xF7#8 = o.setComOutDir &&& 0xF7#8 then .complete (.setComOutDir (b.extractLsb' 3 1)) r
    else if b = o.setDispOffset then oneParam .setDispOffset r
    else if b = o.setComPinCfg then oneParam .setComPinCfg r
    else if b = o.setClkDiv then oneParam .setClkDiv r
    else if b = o.setPrecharge then oneParam .setPrecharge r
    else if b = o.setVcomDesel then oneParam .setVcomDesel r
    else if b = o.setContrast then oneParam .setContrast r
    else if b = o.setEntireOn then .complete .setEntireOn r
    else if b &&& 0xFE#8 = o.setNormInv &&& 0xFE#8 then .complete (.setNormInv (b.extractLsb' 0 1)) r
    else if b = o.setChargePump then oneParam .setChargePump r
    else if b = o.setColAddr then twoParams .setColAddr r
    else if b = o.setPageAddr then twoParams .setPageAddr r
    else .illegal (.unknownCommand b)

/-- The low and high byte of an `s16` operand, as a packet carries them (R82). -/
def s16Bytes (v : S16) : List Byte := [v.extractLsb' 0 8, v.extractLsb' 8 8]

/-- The host packet of an operation (R83); a controller command has none. -/
def encodePacket : Instr → List Byte
  | .fill c => [0x01, c.setWidth 8]
  | .setpx x y c => 0x02 :: s16Bytes x ++ s16Bytes y ++ [c.setWidth 8]
  | .scroll dx dy => 0x03 :: s16Bytes dx ++ s16Bytes dy
  | .pwron => [0x10]
  | .init => [0x11]
  | .showFrame => [0x12]
  | .contrast v => [0x13, v]
  | .invert b => [0x14, b.setWidth 8]
  | .pwroff => [0x15]
  | .glyphs ch x y c sc => 0x20 :: ch :: s16Bytes x ++ s16Bytes y ++ [c.setWidth 8, sc]
  | .texts t x y => 0x21 :: s16Bytes x ++ s16Bytes y ++ BitVec.ofNat 8 t.length :: t
  | .text t x y c => 0x22 :: s16Bytes x ++ s16Bytes y ++ c.setWidth 8 :: BitVec.ofNat 8 t.length :: t
  | .setDisp _ | .setMemAddr _ | .setStartLine _ | .setSegRemap _ | .setMuxRatio _ | .setComOutDir _
  | .setDispOffset _ | .setComPinCfg _ | .setClkDiv _ | .setPrecharge _ | .setVcomDesel _ | .setContrast _
  | .setEntireOn | .setNormInv _ | .setChargePump _ | .setColAddr _ _ | .setPageAddr _ _ => []

/-- The bytes of a controller command as PSDC emits it (R91, R93): `OPC | field`, or opcode and parameter bytes; a
host operation has none. -/
def encodeWire (o : Opc) : Instr → List Byte
  | .setDisp n => [o.setDisp ||| n.setWidth 8]
  | .setMemAddr m => [o.setMemAddr, m]
  | .setStartLine l => [o.setStartLine ||| l.setWidth 8]
  | .setSegRemap r => [o.setSegRemap ||| r.setWidth 8]
  | .setMuxRatio p => [o.setMuxRatio, p]
  | .setComOutDir d => [o.setComOutDir ||| (d.setWidth 8 <<< 3)]
  | .setDispOffset p => [o.setDispOffset, p]
  | .setComPinCfg p => [o.setComPinCfg, p]
  | .setClkDiv p => [o.setClkDiv, p]
  | .setPrecharge p => [o.setPrecharge, p]
  | .setVcomDesel p => [o.setVcomDesel, p]
  | .setContrast p => [o.setContrast, p]
  | .setEntireOn => [o.setEntireOn]
  | .setNormInv i => [o.setNormInv ||| i.setWidth 8]
  | .setChargePump p => [o.setChargePump, p]
  | .setColAddr a b => [o.setColAddr, a, b]
  | .setPageAddr a b => [o.setPageAddr, a, b]
  | .fill _ | .setpx _ _ _ | .scroll _ _ | .pwron | .init | .showFrame | .contrast _ | .invert _ | .pwroff
  | .glyphs _ _ _ _ _ | .texts _ _ _ | .text _ _ _ _ => []

/-- The bytes of an instruction: its host packet, or the default bytes of a controller command. -/
def encode (i : Instr) : List Byte :=
  if i.isHost then encodePacket i else encodeWire Opc.std i

/-- The one instruction a whole byte sequence stands for, on the side (host packet or controller command) that is
asked for: nothing may be left over. -/
def decodeAll (host : Bool) (bs : List Byte) : Option Instr :=
  match (if host then parsePacket bs else parseWire Opc.std bs) with
  | .complete i [] => some i
  | _ => none

/-- The bytes of a table row's instruction: byte `k` is bits `8k+7 .. 8k` of `w`; above `nbits` every bit is 0, up to
the longest packet (R87: 262 bytes). -/
def tableBytes (nbits w : Nat) : List Byte :=
  (List.range ((nbits + 7) / 8)).map (fun k => BitVec.ofNat 8 (w >>> (8 * k))) ++ List.replicate 262 0#8

/-- Which of the two encodings of R80 a table word is in. The opcodes 20, 21, 22 are host operations and also the
first bytes of three commands; those three rows are told apart by the width the table's bit pattern gives the
command rows (16 and 24 bits: log 14). -/
def isWireWord (nbits w : Nat) : Bool :=
  let b := w % 256
  if b = 0x20 then nbits == 16
  else if b = 0x21 then nbits == 24
  else if b = 0x22 then nbits == 24
  else match parsePacket (tableBytes nbits w), parseWire Opc.std (tableBytes nbits w) with
    | .illegal (.reservedOpcode _), .complete _ _ => true
    | _, _ => false

/-- What the decoder of the word's encoding reads. -/
def parseTable (nbits w : Nat) : Parse :=
  if isWireWord nbits w then parseWire Opc.std (tableBytes nbits w) else parsePacket (tableBytes nbits w)

/-- The instruction the decoder reads from a word of spec/opcode_table.json. -/
def decodeTableWord (nbits w : Nat) : Option Instr := (parseTable nbits w).instr?

/-- The bytes of exactly that instruction. -/
def tableInstrBytes (nbits w : Nat) : List Byte :=
  match parseTable nbits w with
  | .complete _ rest => (tableBytes nbits w).take ((tableBytes nbits w).length - rest.length)
  | _ => (tableBytes nbits w).take ((nbits + 7) / 8)

end Sys2Proof
end

