-- ==== Sys2Proof/Machine/Params.lean ====
section
/-! DEFINITION. Derived parameters and constraints of a configuration (spec R7, R9, R25, R57), the lookup in a pattern
table, and the configuration the reset state is shown with. -/
namespace Sys2Proof

/-- `PAGES = H / 8` (R7). -/
def Cfg.pages (c : Cfg) : Nat := c.h / 8

/-- `LEN = PAGES * W` (R7, R21). -/
def Cfg.len (c : Cfg) : Nat := c.pages * c.w

/-- `XOFF`: 32 on a 64-pixel-wide panel, else 0 (R9, R57). -/
def Cfg.xoff (c : Cfg) : Nat := if c.w = 64 then 32 else 0

/-- First column of the controller window, `x0` (R57, R163). -/
def Cfg.colFirst (c : Cfg) : Nat := c.xoff

/-- Last column of the controller window, `x1` (R57, R163). -/
def Cfg.colLast (c : Cfg) : Nat := c.w - 1 + c.xoff

/-- The geometry of R9, and the one constraint on the control bytes (D10, U15). No other PSDC exists. -/
def Cfg.legal (c : Cfg) : Bool :=
  decide (1 ≤ c.w) && decide (8 ≤ c.h) && decide (c.h % 8 = 0) && decide (c.h - 1 ≤ 255)
    && decide (c.w - 1 + c.xoff ≤ 255) && decide (c.ctrlCmd ≠ c.ctrlData)

/-- The first entry of a code in a table, if there is one. -/
def tableFind : GlyphTable → Byte → Option Rows
  | [], _ => none
  | (k, rows) :: t, ch => if k = ch then some rows else tableFind t ch

/-- The all-zero pattern of the space character (R25 a). -/
def blankRows : Rows := Vector.replicate 8 0#8

/-- The characters R25 (c) puts in the table besides space: the digits and the decimal point. -/
def requiredChars : List Byte :=
  [0x30, 0x31, 0x32, 0x33, 0x34, 0x35, 0x36, 0x37, 0x38, 0x39, 0x2E]

/-- What R25 says of the glyph table: (a) space is blank, (b) `Z` is absent, (c) digits and point are present. -/
def Cfg.glyphOk (c : Cfg) : Prop :=
  tableFind c.glyph 0x20 = some blankRows ∧ tableFind c.glyph 0x5A = none ∧
    ∀ ch ∈ requiredChars, (tableFind c.glyph ch).isSome = true

/-- An admissible glyph table that fixes no pixel but those of space: the rest are free values (U13). -/
def initialGlyphs : GlyphTable :=
  (0x20, blankRows) :: (requiredChars.map fun ch => (ch, Config.glyphRows ch))
    ++ Config.moreGlyphs.filter fun e => e.1 != 0x5A

/-- The configuration `State.reset` is shown with: the document's case W = 128, H = 64, no external supply (R7), on
the register transport, with the defaults of R8 (log 2, log 3). -/
def Cfg.initial : Cfg where
  w := 128
  h := 64
  transport := .reg
  extVcc := false
  busAddr := 0x3C
  ctrlCmd := 0x80
  ctrlData := 0x40
  opc := Opc.std
  scrollFill := 0
  textAdv := 16
  dotShift := 6
  dotLookahead := 6
  dotAdv := 16
  csActive := 0
  serialMsbFirst := true
  busTimeout := none
  glyph := initialGlyphs
  font8 := Config.fontTable

end Sys2Proof
end

