-- ==== Sys2Proof/Machine/State.lean ====
section
/-! DEFINITION. The state of PSDC (spec R20, R39 to R41), the reasons a step can stop, and the state after reset
(R36, R250). -/
namespace Sys2Proof.Machine

/-- The sequencer phase `PH` (R29). -/
inductive Phase where
  | idle
  | collect
  | exec
  | fault
  deriving DecidableEq, Repr

/-- The lifecycle mirror `LIFE` (R31). -/
inductive Life where
  | reset
  | powered
  | on
  | sleep
  deriving DecidableEq, Repr

/-- The two states of chip select (R32). -/
inductive Select where
  | asserted
  | deasserted
  deriving DecidableEq, Repr

/-- The events of the wire trace (R13). -/
inductive Event where
  /-- one framed write transaction on the register transport -/
  | regTxn (addr : BitVec 7) (bytes : List Byte)
  /-- the clock of the chip-select transport is configured -/
  | clkCfg (c : ClkCfg)
  /-- the data/command line is driven: 0 = command, 1 = data -/
  | sigDc (v : Bit)
  /-- chip select is asserted or released -/
  | sigCsel (v : Select)
  /-- the reset line is driven -/
  | sigRes (v : Bit)
  /-- bytes shifted out under chip select: a transaction -/
  | csBytes (bytes : List Byte)
  /-- a wait of at least so many microseconds -/
  | delay (us : Nat)
  deriving DecidableEq, Repr

/-- The bus's answer to a transaction (R136). -/
inductive Answer where
  | done
  | fail
  deriving DecidableEq, Repr

/-- What the bus does with one transaction (R38: "`Done`, `Fail`, or none"; R258: "answer each transaction `Done` or
`Fail`, after any delay, or never"). -/
inductive Reply where
  /-- it answers `Done` -/
  | done
  /-- it answers `Fail` -/
  | fail
  /-- it never answers this transaction -/
  | never
  deriving DecidableEq, Repr

/-- The response codes (R40, R221). -/
inductive Rsp where
  | ok
  | busFailure
  | illegalCommand
  deriving DecidableEq, Repr

/-- What the host does at PSDC's ports (R39, R41, R250, R258). -/
inductive HostAct where
  /-- present a byte on the command port -/
  | send (b : Byte)
  /-- present an index on the read-back port -/
  | read (i : Nat)
  /-- assert reset -/
  | reset
  /-- do nothing for one step, so that PSDC runs what it holds before the host acts again (R258: "at any pace") -/
  | pause
  deriving DecidableEq, Repr

structure State where
  /-- the configuration: constant, a field so that one `step` serves every PSDC (R38, log 1) -/
  cfg : Cfg
  /-- `FB` (R21): the bytes written since reset, by rising index; any other byte is unspecified (log 4, log 19) -/
  fb : List Host.Cell
  /-- the free draw that stands for the bytes of `FB` nothing has written since reset (model's own) -/
  fbDraw : Nat
  /-- `TEMP[0]` (R24) -/
  temp0 : Byte
  /-- `TEMP[1]` (R24) -/
  temp1 : Byte
  /-- `PH` (R29) -/
  ph : Phase
  /-- `PKT` (R28) -/
  pkt : List Byte
  /-- `PEN` (R27): exists only inside a text operation -/
  pen : Option Int
  /-- `BUSERR` (R30) -/
  busErr : Bool
  /-- `LIFE` (R31) -/
  life : Life
  /-- `CSEL` (R32) -/
  csel : Select
  /-- `DC` (R32) -/
  dc : Bit
  /-- `RES` (R32) -/
  res : Bit
  /-- `CLKCFG` (R33) -/
  clkCfg : ClkCfg
  /-- `TRACE` (R13), oldest event first -/
  trace : List Event
  /-- the answers drawn, oldest first, part of the observation (R271) -/
  drawn : List Answer
  /-- `rsp_valid` and `rsp_code` (R40): `none` is `rsp_valid = 0` -/
  rsp : Option Rsp
  /-- `fb_rdata` (R41), when a read was presented in the last step -/
  rdata : Option Byte
  /-- what the host does next (input, model's own: log 9) -/
  host : List HostAct
  /-- what the bus does with the transactions to come, one entry each; after the last it answers none (input, model's
  own: log 8) -/
  bus : List Reply
  /-- the transaction the sequencer waits on for ever (R138) -/
  wait : Option Event
  /-- a controller command staged for the serializer (model's own: log 13) -/
  wire : List Byte
  /-- the number of the next unused free draw (model's own) -/
  draws : Nat
  deriving DecidableEq, Repr

/-- Why the machine stops. -/
inductive Fault where
  /-- raised by `step` in EXEC when the transaction in flight has no answer and the host does nothing: the stuck state
  of R138 ("it has no step"). Safe: the hardware makes no step either. -/
  | busHung
  /-- raised by `step` in EXEC when neither the packet buffer nor the staging slot holds an instruction. No run from
  reset reaches such a state. Safe. -/
  | execEmpty
  deriving DecidableEq, Repr

/-- Why a step has no meaning. -/
inductive Refusal where
  /-- an instruction without a meaning yet; no arm uses it. Safe. -/
  | notModelled (mnemonic : String)
  /-- raised by `step` on a configuration outside R9 or with equal control bytes: no such PSDC is constructed (U12,
  U15). Safe. -/
  | badConfig
  deriving DecidableEq, Repr

/-- The state when reset is released (R36, R250): `n` is the free draw for what reset leaves unspecified, `host` and
`bus` are the inputs still to come. -/
def State.afterReset (cfg : Cfg) (n : Nat) (host : List HostAct) (bus : List Reply) : State where
  cfg := cfg
  fb := []
  fbDraw := n
  temp0 := Config.tempAt n 0
  temp1 := Config.tempAt n 1
  ph := .idle
  pkt := []
  pen := none
  busErr := false
  life := .reset
  csel := .deasserted
  dc := 0
  res := 0
  clkCfg := Config.clkAt n
  trace := []
  drawn := []
  rsp := none
  rdata := none
  host := host
  bus := bus
  wait := none
  wire := []
  draws := n + 1

/-- The machine right after reset, in the configuration of `Cfg.initial`, with no input listed (log 2, 8, 9). -/
def State.reset : State := State.afterReset Cfg.initial 0 [] []

end Sys2Proof.Machine
end

