-- ==== Sys2Proof/Machine/Ops.lean ====
section
/-! DEFINITION. The named operations over the framebuffer, the wire trace and the bus, and how an operation ends:
with `OK`, with `BusTransactionFailure` or by hanging; and the refusal of an illegal packet (spec R222, R224). -/
namespace Sys2Proof.Machine

/-- The byte listed at an address, if one is. -/
def Memory.read : List Host.Cell → Nat → Option Byte
  | [], _ => none
  | (k, v) :: m, a => if k = a then some v else Memory.read m a

/-- Lists a byte at an address, keeping addresses rising. -/
def Memory.write : List Host.Cell → Nat → Byte → List Host.Cell
  | [], a, v => [(a, v)]
  | (k, w) :: m, a, v =>
    if a < k then (a, v) :: (k, w) :: m
    else if a = k then (a, v) :: m
    else (k, w) :: Memory.write m a v

/-- The canonical form: addresses strictly rise. An unlisted byte reads as no byte of its own, so no entry can equal
what an unlisted address reads as. -/
abbrev Memory.wf (m : List Host.Cell) : Prop := m.Pairwise fun a b => a.1 < b.1

/-- Every listed address is below `n`. -/
abbrev Memory.below (n : Nat) (m : List Host.Cell) : Prop := ∀ c ∈ m, c.1 < n

/-- The memory that lists the bytes `f 0, ..., f (n-1)`. -/
def Memory.ofFun (n : Nat) (f : Nat → Byte) : List Host.Cell := (List.range n).map fun i => (i, f i)

/-- What an unlisted byte of the framebuffer reads as: unspecified since reset (R36, R251). -/
def State.fbUnwritten (s : State) (i : Nat) : Byte := Config.fbAt s.fbDraw i

/-- `MemRead(i, 1)` (R12, R50). -/
def State.fbRead (s : State) (i : Nat) : Byte := (Memory.read s.fb i).getD (s.fbUnwritten i)

/-- `MemWrite(i, 1, v)` (R12, R50). -/
def State.fbWrite (s : State) (i : Nat) (v : Byte) : State := { s with fb := Memory.write s.fb i v }

/-- All of `FB` takes the bytes `f 0 .. f (LEN-1)`. -/
def State.fbSetAll (s : State) (f : Nat → Byte) : State := { s with fb := Memory.ofFun s.cfg.len f }

/-- `FB[0 .. LEN-1]`, in index order (R52). -/
def State.fbBytes (s : State) : List Byte := (List.range s.cfg.len).map s.fbRead

/-- `emit e` (R12, R13). -/
def State.emit (s : State) (e : Event) : State := { s with trace := s.trace ++ [e] }

/-- What a piece of an operation comes to. -/
inductive Run where
  /-- it ran to its end -/
  | ok (s : State)
  /-- a transaction was answered `Fail`: `BusTransactionFailure` is raised (R137) -/
  | failed (s : State)
  /-- a transaction is never answered (R138) -/
  | hung (s : State)
  deriving DecidableEq, Repr

/-- Go on after a piece that ran to its end; a raise or a hang stops the operation there (R137, R138). -/
def Run.bind : Run → (State → Run) → Run
  | .ok s, k => k s
  | .failed s, _ => .failed s
  | .hung s, _ => .hung s

/-- A change made only after a piece that ran to its end. -/
def Run.andThen : Run → (State → State) → Run
  | .ok s, f => .ok (f s)
  | .failed s, _ => .failed s
  | .hung s, _ => .hung s

/-- A change made once the transaction is answered, whatever the answer (R133: "whether the answer is `Done` or
`Fail`"). -/
def Run.onAnswer : Run → (State → State) → Run
  | .ok s, f => .ok (f s)
  | .failed s, f => .failed (f s)
  | .hung s, _ => .hung s

/-- The state a piece leaves. -/
def Run.state : Run → State
  | .ok s => s
  | .failed s => s
  | .hung s => s

/-- The bus answers the transaction in flight. -/
def State.answered (s : State) (a : Answer) (rest : List Reply) : State :=
  { s with bus := rest, drawn := s.drawn ++ [a] }

/-- The transaction in flight is never answered (R138): a bus timeout "reports the expiry as `Fail`"; without one the
sequencer waits for ever. -/
def State.unansweredTxn (s : State) (e : Event) (rest : List Reply) : Run :=
  match s.cfg.busTimeout with
  | some _ => .failed (s.answered .fail rest)
  | none => .hung { s with wait := some e, bus := rest }

/-- `BusTxn(e)` (R136): append the event, take one answer from the environment, or none (R38, R138). -/
def State.busTxn (s : State) (e : Event) : Run :=
  match s.bus with
  | .done :: r => .ok ((s.emit e).answered .done r)
  | .fail :: r => .failed ((s.emit e).answered .fail r)
  | .never :: r => (s.emit e).unansweredTxn e r
  | [] => (s.emit e).unansweredTxn e []

/-- The operation ends: EXEC to IDLE, the packet is consumed, one response (R29, R40). -/
def State.endWith (s : State) (r : Rsp) : State :=
  { s with ph := .idle, pkt := [], wire := [], rsp := some r }

/-- The operation ran to its end: response `OK`. -/
def State.complete (s : State) : State := s.endWith .ok

/-- `raise BusTransactionFailure` (R222): `BUSERR` set, `LIFE` and everything already done kept, back to IDLE,
response 01. -/
def State.raiseBusFailure (s : State) : State := { s with busErr := true }.endWith .busFailure

/-- The operation waits for ever (R138): it stays in EXEC. -/
def State.hang (s : State) : State := { s with ph := .exec }

/-- `IllegalCommand` (R88, R89, R224): response 02, phase FAULT, no other state changes. -/
def State.illegal (s : State) : State := { s with ph := .fault, rsp := some .illegalCommand }

/-- The next state of an operation whose body came to `r`. -/
def Run.next : Run → State
  | .ok s => s.complete
  | .failed s => s.raiseBusFailure
  | .hung s => s.hang

/-- An operation answers a next state however its body ends. -/
def Run.finish (r : Run) : Host.Outcome State Fault Refusal := .next r.next

end Sys2Proof.Machine
end

