-- ==== Sys2Proof/Machine/Operands.lean ====
section
/-! DEFINITION. Operand forms: the integers operands denote (spec R11) and the one addressing mode, a pixel of the
framebuffer (R51, R110, R112). -/
namespace Sys2Proof.Machine

/-- `sext_16` (R11). -/
def sext16 (v : S16) : Int := v.toInt

/-- `zext_8` (R11). -/
def zext8 (v : Byte) : Nat := v.toNat

/-- `InRange(x, y)` (R12), on the integers themselves. -/
def inRange (c : Cfg) (x y : Int) : Bool :=
  decide (0 ≤ x) && decide (x < c.w) && decide (0 ≤ y) && decide (y < c.h)

/-- The byte of pixel `(x, y)`: `(y div 8) * W + x` (R51). -/
def pixelByte (c : Cfg) (x y : Int) : Nat := (y.toNat / 8) * c.w + x.toNat

/-- The bit of pixel `(x, y)`: `y mod 8` (R51). -/
def pixelBit (y : Int) : Nat := y.toNat % 8

/-- Bit `n` of a byte, as a bit (R10). -/
def bitAt (b : Byte) (n : Nat) : Bit := (b >>> n).setWidth 1

/-- `b` with bit `n` replaced by `c`: `(b & ~(1 << n) & 0xFF) | (c << n)` (R112). -/
def withBitAt (b : Byte) (n : Nat) (c : Bit) : Byte := (b &&& ~~~(1#8 <<< n)) ||| (c.setWidth 8 <<< n)

/-- `Px(x, y)` (R110); a pixel only when in range. -/
def State.px (s : State) (x y : Int) : Bit := bitAt (s.fbRead (pixelByte s.cfg x y)) (pixelBit y)

/-- `SetPx(x, y, c)` (R112): out of range, nothing happens. -/
def State.setPx (s : State) (x y : Int) (c : Bit) : State :=
  if inRange s.cfg x y then
    s.fbWrite (pixelByte s.cfg x y) (withBitAt (s.fbRead (pixelByte s.cfg x y)) (pixelBit y) c)
  else s

/-- A byte from its eight bits. -/
def packByte (f : Nat → Bit) : Byte :=
  (List.range 8).foldl (fun b k => withBitAt b k (f k)) 0#8

/-- The framebuffer whose pixel `(x, y)` is `g x y`, for every pixel in range: byte `i` holds column `i mod W`, rows
`8 * (i div W)` to `8 * (i div W) + 7` (R51). -/
def State.setAllPx (s : State) (g : Int → Int → Bit) : State :=
  s.fbSetAll fun i => packByte fun k => g ((i % s.cfg.w : Nat) : Int) ((8 * (i / s.cfg.w) + k : Nat) : Int)

/-- Paint a list of pixels, offset from `(x, y)`, all with colour `c`. -/
def State.paint (x y : Int) (c : Bit) : List (Nat × Nat) → State → State
  | [], s => s
  | (dx, dy) :: ps, s => State.paint x y c ps (s.setPx (x + dx) (y + dy) c)

end Sys2Proof.Machine
end

