-- ==== Sys2Proof/Machine/Flags.lean ====
section
/-! DEFINITION. The status outputs (spec R29, R30, R31, R40) and the levels of the output lines (R32, R139). There are
no condition codes. -/
namespace Sys2Proof.Machine

/-- `busy`: 1 exactly in EXEC (R30). -/
def State.busy (s : State) : Bool := decide (s.ph = .exec)

/-- `fault`: 1 exactly in FAULT (R30). -/
def State.faulted (s : State) : Bool := decide (s.ph = .fault)

/-- `cmd_ready`: 1 in IDLE and COLLECT (R29, R39). -/
def State.cmdReady (s : State) : Bool := decide (s.ph = .idle) || decide (s.ph = .collect)

/-- The code of `LIFE[1:0]` (R31). -/
def Life.code : Life → BitVec 2
  | .reset => 0
  | .powered => 1
  | .on => 2
  | .sleep => 3

/-- `rsp_code[7:0]` (R40, R221). -/
def Rsp.code : Rsp → Byte
  | .ok => 0x00
  | .busFailure => 0x01
  | .illegalCommand => 0x02

/-- The electrical level of the chip-select line (R32): `CS_ACTIVE` when asserted, the other level when not. -/
def State.cselLevel (s : State) : Bit :=
  match s.csel with
  | .asserted => s.cfg.csActive
  | .deasserted => ~~~s.cfg.csActive

/-- The bits of a byte in the order the serial line carries them (R52 d, R139). -/
def serialBits (c : Cfg) (b : Byte) : List Bit :=
  let lsbFirst := (List.range 8).map (bitAt b)
  if c.serialMsbFirst then lsbFirst.reverse else lsbFirst

end Sys2Proof.Machine
end

