-- ==== Sys2Proof/Machine/Transport.lean ====
section
/-! DEFINITION. The two bus transports: `Cmd(b)` and `Data(bs)` (spec R130 to R137). -/
namespace Sys2Proof.Machine

/-- The one clock configuration: 10 MHz, clock idle low, first-edge sample (R33, R135). -/
def fixedClk : ClkCfg := { hz := 10000000, idleLow := true, firstEdge := true }

/-- `CLKCFG <- c; emit ClkCfg(c)` (R33). -/
def State.setClk (s : State) (c : ClkCfg) : State := { s with clkCfg := c }.emit (.clkCfg c)

/-- `DC <- v; emit Sig(DC, v)` (R32: the event comes even when the level does not change). -/
def State.setDc (s : State) (v : Bit) : State := { s with dc := v }.emit (.sigDc v)

/-- `CSEL <- v; emit Sig(CSEL, v)` (R32). -/
def State.setCsel (s : State) (v : Select) : State := { s with csel := v }.emit (.sigCsel v)

/-- `RES <- v; emit Sig(RES, v)` (R32). -/
def State.setRes (s : State) (v : Bit) : State := { s with res := v }.emit (.sigRes v)

/-- `TEMP[0] <- a; TEMP[1] <- b` (R24). -/
def State.setTemp (s : State) (a b : Byte) : State := { s with temp0 := a, temp1 := b }

/-- One transaction in a chip-select frame with the data/command line at `v` (R133, R134): clock, line, select, bytes,
release. -/
def State.csFrame (s : State) (v : Bit) (bytes : List Byte) : Run :=
  ((((s.setClk fixedClk).setDc v).setCsel .asserted).busTxn (.csBytes bytes)).onAnswer
    fun s => s.setCsel .deasserted

/-- `Cmd(b)` on `REG` (R131): control byte and command byte in one transaction. -/
def State.cmdReg (s : State) (b : Byte) : Run :=
  (s.setTemp s.cfg.ctrlCmd b).busTxn (.regTxn s.cfg.busAddr [s.cfg.ctrlCmd, b])

/-- `Cmd(b)` on `CS` (R133). -/
def State.cmdCs (s : State) (b : Byte) : Run := s.csFrame 0 [b]

/-- `Cmd(b)` (R130). -/
def State.cmd (s : State) (b : Byte) : Run :=
  match s.cfg.transport with
  | .reg => s.cmdReg b
  | .cs => s.cmdCs b

/-- `Data(bs)` on `REG` (R132, C4): one control byte, then all of `bs`, in one transaction. -/
def State.dataReg (s : State) (bs : List Byte) : Run :=
  s.busTxn (.regTxn s.cfg.busAddr (s.cfg.ctrlData :: bs))

/-- `Data(bs)` on `CS` (R134). -/
def State.dataCs (s : State) (bs : List Byte) : Run := s.csFrame 1 bs

/-- `Data(bs)` (R130). -/
def State.data (s : State) (bs : List Byte) : Run :=
  match s.cfg.transport with
  | .reg => s.dataReg bs
  | .cs => s.dataCs bs

/-- Each byte by its own `Cmd`, in order (R91); a raise stops the rest (R137). -/
def sendBytes : List Byte → State → Run
  | [], s => .ok s
  | b :: bs, s => (s.cmd b).bind (sendBytes bs)

/-- Emit one controller command (R91, R93). -/
def State.command (s : State) (i : Instr) : Run := sendBytes (encodeWire s.cfg.opc i) s

/-- Emit a fixed sequence of controller commands (R29: "the sequencer walks fixed tables"). -/
def walk : List Instr → State → Run
  | [], s => .ok s
  | i :: is, s => (s.command i).bind (walk is)

end Sys2Proof.Machine
end

