-- ==== Sys2Proof/Machine/Framebuffer.lean ====
section
/-! DEFINITION. The framebuffer unit: FILL, SETPX, SCROLL (spec R111, R113, R114). -/
namespace Sys2Proof.Machine

/-- The byte that fills: `FF` for colour 1, `00` for colour 0 (R111). -/
def fillByte (c : Bit) : Byte := if c = 1#1 then 0xFF else 0x00

/-- Every byte of `FB` takes `v`: the loop of R111, and of INIT's clear (R161). -/
def State.fillFb (s : State) (v : Byte) : State := s.fbSetAll fun _ => v

/-- The pixel that `SCROLL` puts at `(x, y)` (R114): the old pixel `(x - dx, y - dy)`, or `SCROLL_FILL`. -/
def State.scrolled (s : State) (dx dy x y : Int) : Bit :=
  if inRange s.cfg (x - dx) (y - dy) then s.px (x - dx) (y - dy) else s.cfg.scrollFill

/-- FILL (R111). -/
def execFill (color : Bit) (s : State) : Host.Outcome State Fault Refusal :=
  (Run.ok (s.fillFb (fillByte color))).finish

/-- SETPX (R113). -/
def execSetpx (x y : S16) (color : Bit) (s : State) : Host.Outcome State Fault Refusal :=
  (Run.ok (s.setPx (sext16 x) (sext16 y) color)).finish

/-- SCROLL (R114): every read sees the content before the operation. -/
def execScroll (dx dy : S16) (s : State) : Host.Outcome State Fault Refusal :=
  (Run.ok (s.setAllPx (s.scrolled (sext16 dx) (sext16 dy)))).finish

end Sys2Proof.Machine
end

