-- ==== Sys2Proof/Machine/Serializer.lean ====
section
/-! DEFINITION. The display command serializer: PWRON, INIT, SHOW, CONTRAST, INVERT, PWROFF (spec R160 to R168). -/
namespace Sys2Proof.Machine

/-- A number the serializer emits as one byte (R9). -/
def asByte (n : Nat) : Byte := BitVec.ofNat 8 n

/-- `INIT_TABLE`: the sixteen commands of R162, in order. -/
def initTable (c : Cfg) : List Instr :=
  [ .setDisp 0,
    .setMemAddr c.opc.modeHorizontal,
    .setStartLine 0,
    .setSegRemap 1,
    .setMuxRatio (asByte (c.h - 1)),
    .setComOutDir 1,
    .setDispOffset 0x00,
    .setComPinCfg (if c.h = 32 then 0x02 else 0x12),
    .setClkDiv 0x80,
    .setPrecharge (if c.extVcc then 0x22 else 0xF1),
    .setVcomDesel 0x30,
    .setContrast 0xFF,
    .setEntireOn,
    .setNormInv 0,
    .setChargePump (if c.extVcc then 0x10 else 0x14),
    .setDisp 1 ]

/-- The window commands of a flush (R57, R163): columns first, then pages. -/
def showTable (c : Cfg) : List Instr :=
  [ .setColAddr (asByte c.colFirst) (asByte c.colLast), .setPageAddr 0 (asByte (c.pages - 1)) ]

/-- The reset pulse (R160): high, at least 1 ms, low, at least 10 ms, high. -/
def State.resetPulse (s : State) : State :=
  ((((s.setRes 1).emit (.delay 1000)).setRes 0).emit (.delay 10000)).setRes 1

/-- The body of PWRON (R160): the pulse on the chip-select transport only. -/
def State.powerOn (s : State) : State :=
  match s.cfg.transport with
  | .reg => { s with life := .powered }
  | .cs => { s.resetPulse with life := .powered }

/-- The body of SHOW (R163): the window, then the whole framebuffer in one transaction. -/
def State.showBody (s : State) : Run := (walk (showTable s.cfg) s).bind fun s => s.data s.fbBytes

/-- The body of INIT (R161): the table, the clear, the flush; `LIFE` only when nothing failed. -/
def State.initBody (s : State) : Run :=
  ((walk (initTable s.cfg) s).bind fun s => (s.fillFb 0x00).showBody).andThen fun s => { s with life := .on }

/-- PWRON (R160). -/
def execPwron (s : State) : Host.Outcome State Fault Refusal := (Run.ok s.powerOn).finish

/-- INIT (R161). -/
def execInit (s : State) : Host.Outcome State Fault Refusal := s.initBody.finish

/-- SHOW (R163). -/
def execShow (s : State) : Host.Outcome State Fault Refusal := s.showBody.finish

/-- CONTRAST (R164): the command of INIT step 12 with the operand. -/
def execContrast (v : Byte) (s : State) : Host.Outcome State Fault Refusal := (s.command (.setContrast v)).finish

/-- INVERT (R165): the command of INIT step 14 with the operand. -/
def execInvert (inv : Bit) (s : State) : Host.Outcome State Fault Refusal := (s.command (.setNormInv inv)).finish

/-- PWROFF (R166): the display-off of INIT step 1; `LIFE` only on success. -/
def execPwroff (s : State) : Host.Outcome State Fault Refusal :=
  ((s.command (.setDisp 0)).andThen fun s => { s with life := .sleep }).finish

end Sys2Proof.Machine
end

