-- ==== Sys2Proof/Machine/Text.lean ====
section
/-! DEFINITION. The text glyph rasterizer: GLYPHS, TEXTS, TEXT (spec R190 to R194). -/
namespace Sys2Proof.Machine

/-- `Lookup(ch)` (R190): an absent character takes the space glyph, silently. -/
def lookupGlyph (c : Cfg) (ch : Byte) : Rows :=
  match tableFind c.glyph ch with
  | some rows => rows
  | none => (tableFind c.glyph 0x20).getD blankRows

/-- Row `r` of a pattern (R25). -/
def rowOf (rows : Rows) (r : Nat) : Byte := rows.toList.getD r 0#8

/-- Column `c` of row `r` of a pattern: bit 7 is the leftmost column (R25, R191). -/
def patternBit (rows : Rows) (c r : Nat) : Bit := bitAt (rowOf rows r) (7 - c)

/-- `FONT8(code, c, r)` (R26): total; a code without an entry has no set pixel in this representation. -/
def fontBit (cfg : Cfg) (ch : Byte) (c r : Nat) : Bit :=
  match tableFind cfg.font8 ch with
  | some rows => patternBit rows c r
  | none => 0#1

/-- The pixels, as offsets, that a pattern paints at a scale (R191): a `scale x scale` block for each set bit, rows
from the top, columns from the left. -/
def glyphPixels (bit : Nat → Nat → Bit) (scale : Nat) : List (Nat × Nat) :=
  (List.range 8).flatMap fun r => (List.range 8).flatMap fun c =>
    if bit c r = 1#1 then
      (List.range scale).flatMap fun sy => (List.range scale).map fun sx => (c * scale + sx, r * scale + sy)
    else []

/-- `DrawGlyph(ch, x, y, color, scale)` (R191). -/
def State.drawGlyph (s : State) (ch : Byte) (x y : Int) (color : Bit) (scale : Nat) : State :=
  State.paint x y color (glyphPixels (patternBit (lookupGlyph s.cfg ch)) scale) s

/-- One character of the unscaled path (R194). -/
def State.drawFontChar (s : State) (ch : Byte) (x y : Int) (color : Bit) : State :=
  State.paint x y color (glyphPixels (fontBit s.cfg ch) 1) s

/-- The code of the decimal point (R96). -/
def dotCode : Byte := 0x2E

/-- How far left of the pen a character is drawn (R192). -/
def textsShift (c : Cfg) (ch : Byte) : Int := if ch = dotCode then c.dotShift else 0

/-- The advance of a character, given the characters after it (R192, R193). -/
def textsAdvance (c : Cfg) (ch : Byte) (after : List Byte) : Int :=
  (if ch = dotCode then c.dotAdv else c.textAdv) - (if after.head? = some dotCode then c.dotLookahead else 0)

/-- The pen of the text operation that is running (R27). -/
def State.penPos (s : State) : Int := s.pen.getD 0

/-- `PEN <- p` (R27). -/
def State.setPen (s : State) (p : Option Int) : State := { s with pen := p }

/-- The character loop of TEXTS (R192): colour 1, scale 2. -/
def textsLoop (x y : Int) : List Byte → State → State
  | [], s => s
  | ch :: rest, s =>
    textsLoop x y rest
      ((s.drawGlyph ch (x + s.penPos - textsShift s.cfg ch) y 1 2).setPen
        (some (s.penPos + textsAdvance s.cfg ch rest)))

/-- The character loop of TEXT (R194): every character advances the pen by 8. -/
def textLoop (x y : Int) (color : Bit) : List Byte → State → State
  | [], s => s
  | ch :: rest, s =>
    textLoop x y color rest ((s.drawFontChar ch (x + s.penPos) y color).setPen (some (s.penPos + 8)))

/-- GLYPHS (R191). -/
def execGlyphs (ch : Byte) (x y : S16) (color : Bit) (scale : Byte) (s : State) :
    Host.Outcome State Fault Refusal :=
  (Run.ok (s.drawGlyph ch (sext16 x) (sext16 y) color (zext8 scale))).finish

/-- TEXTS (R192): the pen starts at 0 and is not kept (R27). -/
def execTexts (text : List Byte) (x y : S16) (s : State) : Host.Outcome State Fault Refusal :=
  (Run.ok ((textsLoop (sext16 x) (sext16 y) text (s.setPen (some 0))).setPen none)).finish

/-- TEXT (R194): the pen starts at 0 and is not kept (R27). -/
def execText (text : List Byte) (x y : S16) (color : Bit) (s : State) : Host.Outcome State Fault Refusal :=
  (Run.ok ((textLoop (sext16 x) (sext16 y) color text (s.setPen (some 0))).setPen none)).finish

end Sys2Proof.Machine
end

