-- ==== Sys2Proof/Machine/Command.lean ====
section
/-! DEFINITION. The seventeen controller commands (spec R91, R93): each sends its bytes, every byte by its own `Cmd`,
and reports the result to its caller (R40: "propagate up to the caller of `show`/`write_cmd`"; log 13). -/
namespace Sys2Proof.Machine

/-- OPC.SET_DISP (R93). -/
def execSetDisp (on : Bit) (s : State) : Host.Outcome State Fault Refusal :=
  (s.command (.setDisp on)).finish

/-- OPC.SET_MEM_ADDR (R93). -/
def execSetMemAddr (mode : Byte) (s : State) : Host.Outcome State Fault Refusal :=
  (s.command (.setMemAddr mode)).finish

/-- OPC.SET_START_LINE (R93). -/
def execSetStartLine (line : BitVec 6) (s : State) : Host.Outcome State Fault Refusal :=
  (s.command (.setStartLine line)).finish

/-- OPC.SET_SEG_REMAP (R93). -/
def execSetSegRemap (remap : Bit) (s : State) : Host.Outcome State Fault Refusal :=
  (s.command (.setSegRemap remap)).finish

/-- OPC.SET_MUX_RATIO (R93). -/
def execSetMuxRatio (ratio : Byte) (s : State) : Host.Outcome State Fault Refusal :=
  (s.command (.setMuxRatio ratio)).finish

/-- OPC.SET_COM_OUT_DIR (R93). -/
def execSetComOutDir (dir : Bit) (s : State) : Host.Outcome State Fault Refusal :=
  (s.command (.setComOutDir dir)).finish

/-- OPC.SET_DISP_OFFSET (R93). -/
def execSetDispOffset (offset : Byte) (s : State) : Host.Outcome State Fault Refusal :=
  (s.command (.setDispOffset offset)).finish

/-- OPC.SET_COM_PIN_CFG (R93). -/
def execSetComPinCfg (pins : Byte) (s : State) : Host.Outcome State Fault Refusal :=
  (s.command (.setComPinCfg pins)).finish

/-- OPC.SET_CLK_DIV (R93). -/
def execSetClkDiv (ratio : Byte) (s : State) : Host.Outcome State Fault Refusal :=
  (s.command (.setClkDiv ratio)).finish

/-- OPC.SET_PRECHARGE (R93). -/
def execSetPrecharge (period : Byte) (s : State) : Host.Outcome State Fault Refusal :=
  (s.command (.setPrecharge period)).finish

/-- OPC.SET_VCOM_DESEL (R93). -/
def execSetVcomDesel (level : Byte) (s : State) : Host.Outcome State Fault Refusal :=
  (s.command (.setVcomDesel level)).finish

/-- OPC.SET_CONTRAST (R93). -/
def execSetContrast (value : Byte) (s : State) : Host.Outcome State Fault Refusal :=
  (s.command (.setContrast value)).finish

/-- OPC.SET_ENTIRE_ON (R93). -/
def execSetEntireOn (s : State) : Host.Outcome State Fault Refusal := (s.command .setEntireOn).finish

/-- OPC.SET_NORM_INV (R93). -/
def execSetNormInv (inv : Bit) (s : State) : Host.Outcome State Fault Refusal :=
  (s.command (.setNormInv inv)).finish

/-- OPC.SET_CHARGE_PUMP (R93). -/
def execSetChargePump (setting : Byte) (s : State) : Host.Outcome State Fault Refusal :=
  (s.command (.setChargePump setting)).finish

/-- OPC.SET_COL_ADDR (R93). -/
def execSetColAddr (first last : Byte) (s : State) : Host.Outcome State Fault Refusal :=
  (s.command (.setColAddr first last)).finish

/-- OPC.SET_PAGE_ADDR (R93). -/
def execSetPageAddr (first last : Byte) (s : State) : Host.Outcome State Fault Refusal :=
  (s.command (.setPageAddr first last)).finish

end Sys2Proof.Machine
end

