-- ==== Sys2Proof/Machine/Dispatch.lean ====
section
/-! DEFINITION. One arm per instruction. -/
namespace Sys2Proof.Machine

def exec (i : Instr) (s : State) : Host.Outcome State Fault Refusal :=
  match i with
  | .fill c => Sys2Proof.Machine.execFill c s
  | .setpx x y c => Sys2Proof.Machine.execSetpx x y c s
  | .scroll dx dy => Sys2Proof.Machine.execScroll dx dy s
  | .pwron => Sys2Proof.Machine.execPwron s
  | .init => Sys2Proof.Machine.execInit s
  | .showFrame => Sys2Proof.Machine.execShow s
  | .contrast v => Sys2Proof.Machine.execContrast v s
  | .invert b => Sys2Proof.Machine.execInvert b s
  | .pwroff => Sys2Proof.Machine.execPwroff s
  | .glyphs ch x y c sc => Sys2Proof.Machine.execGlyphs ch x y c sc s
  | .texts t x y => Sys2Proof.Machine.execTexts t x y s
  | .text t x y c => Sys2Proof.Machine.execText t x y c s
  | .setDisp on => Sys2Proof.Machine.execSetDisp on s
  | .setMemAddr mode => Sys2Proof.Machine.execSetMemAddr mode s
  | .setStartLine line => Sys2Proof.Machine.execSetStartLine line s
  | .setSegRemap remap => Sys2Proof.Machine.execSetSegRemap remap s
  | .setMuxRatio ratio => Sys2Proof.Machine.execSetMuxRatio ratio s
  | .setComOutDir dir => Sys2Proof.Machine.execSetComOutDir dir s
  | .setDispOffset offset => Sys2Proof.Machine.execSetDispOffset offset s
  | .setComPinCfg pins => Sys2Proof.Machine.execSetComPinCfg pins s
  | .setClkDiv ratio => Sys2Proof.Machine.execSetClkDiv ratio s
  | .setPrecharge period => Sys2Proof.Machine.execSetPrecharge period s
  | .setVcomDesel level => Sys2Proof.Machine.execSetVcomDesel level s
  | .setContrast value => Sys2Proof.Machine.execSetContrast value s
  | .setEntireOn => Sys2Proof.Machine.execSetEntireOn s
  | .setNormInv inv => Sys2Proof.Machine.execSetNormInv inv s
  | .setChargePump setting => Sys2Proof.Machine.execSetChargePump setting s
  | .setColAddr first last => Sys2Proof.Machine.execSetColAddr first last s
  | .setPageAddr first last => Sys2Proof.Machine.execSetPageAddr first last s

end Sys2Proof.Machine
end

