-- ==== Sys2Proof/Machine/Port.lean ====
section
/-! DEFINITION. The host-side ports (spec R29, R39 to R41, R86, R250) and what a step does next. -/
namespace Sys2Proof.Machine

/-- What the next step does. -/
inductive Action where
  /-- run an instruction -/
  | run (i : Instr) (s : State)
  /-- take a next state without running one -/
  | go (s : State)
  /-- stop -/
  | stop (r : Fault)
  /-- no meaning -/
  | refuse (r : Refusal)

/-- A response and read-back data stand for one step (R40, R41). -/
def State.tick (s : State) : State := { s with rsp := none, rdata := none }

/-- The host's action is over. -/
def State.withHost (s : State) (rest : List HostAct) : State := { s with host := rest }

/-- A byte on the command port, in IDLE or COLLECT (R29, R86, R88, R89). The byte that makes a packet illegal is not
recorded (R221) and what was collected before it stays (R88: "No state other than `PH` changes"). -/
def State.accept (s : State) (b : Byte) : State :=
  match parsePacket (s.pkt ++ [b]) with
  | .complete _ _ => { s with ph := .exec, pkt := s.pkt ++ [b] }
  | .incomplete => { s with ph := .collect, pkt := s.pkt ++ [b] }
  | .illegal _ => s.illegal

/-- The read-back port (R41): the byte, or any byte while busy or outside the framebuffer. -/
def State.serveRead (s : State) (i : Nat) : State :=
  if !s.busy && decide (i < s.cfg.len) then { s with rdata := some (s.fbRead i) }
  else { s with rdata := some (Config.portByte s.draws), draws := s.draws + 1 }

/-- Reset (R36, R250): the constants stay, the inputs still to come stay, `FB`, `TEMP`, `CLKCFG` become unspecified
anew. -/
def State.doReset (s : State) : State := State.afterReset s.cfg s.draws s.host s.bus

/-- The instruction EXEC holds: the staged controller command if there is one, else the packet. -/
def State.fetch (s : State) : Option Instr :=
  match s.wire with
  | [] => (parsePacket s.pkt).instr?
  | b :: r => (parseWire s.cfg.opc (b :: r)).instr?

/-- EXEC with nothing in flight: run what it holds. -/
def State.runHeld (s : State) : Action :=
  match s.fetch with
  | some i => .run i s
  | none => .stop .execEmpty

/-- The host presents a byte: taken in IDLE and COLLECT; EXEC runs its operation first, the byte waits; while PSDC can
not get ready by itself (FAULT, hung) the byte is not accepted and the host gives up (log 9). -/
def State.offered (s : State) (b : Byte) (rest : List HostAct) : Action :=
  match s.ph with
  | .idle => .go ((s.withHost rest).accept b)
  | .collect => .go ((s.withHost rest).accept b)
  | .exec => if s.wait.isSome then .go (s.withHost rest) else s.runHeld
  | .fault => .go (s.withHost rest)

/-- The host leaves PSDC one step: EXEC runs its operation; a hung PSDC and the other phases stay as they are. -/
def State.paused (s : State) : Action :=
  match s.ph with
  | .idle => .go s
  | .collect => .go s
  | .exec => if s.wait.isSome then .go s else s.runHeld
  | .fault => .go s

/-- The host does nothing more: EXEC runs its operation, or is stuck (R138, log 11). -/
def State.alone (s : State) : Action :=
  if s.busy && s.wait.isSome then .stop .busHung else s.paused

/-- What the next step does. A configuration outside R9 has no meaning. -/
def State.nextAction (s : State) : Action :=
  if s.cfg.legal then
    match s.host with
    | .reset :: rest => .go (s.tick.withHost rest).doReset
    | .read i :: rest => .go ((s.tick.withHost rest).serveRead i)
    | .send b :: rest => s.tick.offered b rest
    | .pause :: rest => (s.tick.withHost rest).paused
    | [] => s.tick.alone
  else .refuse .badConfig

/-- The state whose next step runs the instruction of a table word: EXEC holding its packet, or the staged command;
nothing in flight, and no host action before it. A word that is no instruction is sent byte by byte. -/
def State.withTableWord (s : State) (nbits w : Nat) : State :=
  match parseTable nbits w with
  | .complete _ _ =>
    if isWireWord nbits w then
      { s with ph := .exec, pkt := [], wire := tableInstrBytes nbits w, wait := none, host := [] }
    else
      { s with ph := .exec, pkt := tableInstrBytes nbits w, wire := [], wait := none, host := [] }
  | _ =>
    { s with ph := .idle, pkt := [], wire := [], wait := none, host := (tableInstrBytes nbits w).map .send }

end Sys2Proof.Machine
end

