-- ==== Sys2Proof/Machine/Step.lean ====
section
/-! DEFINITION. One step of the machine, and the placing of one instruction where the next step runs it. -/
namespace Sys2Proof.Machine

/-- One step: one host action, or one operation to completion (spec R29, R60). -/
def step (s : State) : Host.Outcome State Fault Refusal :=
  match s.nextAction with
  | .run i t => exec i t
  | .go t => .next t
  | .stop r => .fault r
  | .refuse r => .refused r

/-- `s` with the instruction of a table word where the next step runs it (log 14). -/
def State.withFetchWord (s : State) (nbits w : Nat) : State := s.withTableWord nbits w

end Sys2Proof.Machine
end

