-- ==== Sys2Proof/Machine/Receiver.lean ====
section
/-! DEFINITION. The informative receiver of spec R146 (general knowledge in the spec's own words, log 22): what a
display controller at the far end of the bus makes of the wire events. It is no state of PSDC (R6 c, R35 a); it is a
function on the trace, for the claims R58 and R146 make about the panel. -/
namespace Sys2Proof.Machine

/-- The receiver's state (R35 a, R146). Column and page bounds are the window; `ram` is `GDDRAM`, byte
`(page, col)` at `256 * page + col`. -/
structure Rx where
  ram : List Host.Cell
  colFirst : Nat
  colLast : Nat
  col : Nat
  pageFirst : Nat
  pageLast : Nat
  page : Nat
  mode : Byte
  on : Bit
  startLine : BitVec 6
  remap : Bit
  muxRatio : Byte
  comDir : Bit
  offset : Byte
  comPins : Byte
  clkDiv : Byte
  precharge : Byte
  vcomDesel : Byte
  contrast : Byte
  inverted : Bit
  chargePump : Byte
  /-- bytes of a command not complete yet -/
  pending : List Byte
  /-- the level of the data/command line -/
  dc : Bit
  /-- the reset line is low (R262 a) -/
  held : Bool
  deriving DecidableEq, Repr, Inhabited

/-- FREE VALUE (R146): the receiver's power-on defaults, which the reset pulse returns it to. -/
opaque Config.rxPowerOn : Rx

/-- FREE VALUE (R146 speaks of horizontal addressing only): what a data byte does in another mode. -/
opaque Config.rxOtherMode : Rx → Byte → Rx

/-- FREE VALUE (R262 a speaks of "a controller held in reset" only): what bytes do to a receiver held in reset. -/
opaque Config.rxInReset : Rx → List Byte → Rx

/-- FREE VALUE (R137, U6, U7): how many bytes the receiver took of the `n`-th transaction that was not answered
`Done`; more than it has is all of them. -/
opaque Config.rxTaken : Nat → Nat

/-- FREE VALUE (R146 is silent, log 29): what a command-mode byte does that neither starts nor continues a command of
R93's table. -/
opaque Config.rxNoCommand : Rx → Byte → Rx

/-- FREE VALUE (R146 is silent, log 30): where the column pointer goes from past its window's end. -/
opaque Config.rxColPast : Rx → Byte

/-- FREE VALUE (R146 is silent, log 30): where the page pointer goes from past its window's end, or when the column
pointer is past its own. -/
opaque Config.rxPagePast : Rx → Byte

/-- Where `(page, col)` stands in `ram`. -/
def rxCell (page col : Nat) : Nat := 256 * page + col

/-- The pixel at column `col` of row `row`, if its byte is held: bit `i` of the byte of page `p` is the pixel of row
`8 * p + i` (R146). -/
def Rx.pixel (rx : Rx) (col row : Nat) : Option Bit :=
  (Memory.read rx.ram (rxCell (row / 8) col)).map fun b => bitAt b (row % 8)

/-- A command takes effect (R93, R146). -/
def Rx.apply (rx : Rx) : Instr → Rx
  | .setDisp n => { rx with on := n }
  | .setMemAddr m => { rx with mode := m }
  | .setStartLine l => { rx with startLine := l }
  | .setSegRemap r => { rx with remap := r }
  | .setMuxRatio p => { rx with muxRatio := p }
  | .setComOutDir d => { rx with comDir := d }
  | .setDispOffset p => { rx with offset := p }
  | .setComPinCfg p => { rx with comPins := p }
  | .setClkDiv p => { rx with clkDiv := p }
  | .setPrecharge p => { rx with precharge := p }
  | .setVcomDesel p => { rx with vcomDesel := p }
  | .setContrast p => { rx with contrast := p }
  | .setEntireOn => rx
  | .setNormInv i => { rx with inverted := i }
  | .setChargePump p => { rx with chargePump := p }
  | .setColAddr a b => { rx with colFirst := a.toNat, colLast := b.toNat, col := a.toNat }
  | .setPageAddr a b => { rx with pageFirst := a.toNat, pageLast := b.toNat, page := a.toNat }
  | .fill _ | .setpx _ _ _ | .scroll _ _ | .pwron | .init | .showFrame | .contrast _ | .invert _ | .pwroff
  | .glyphs _ _ _ _ _ | .texts _ _ _ | .text _ _ _ _ => rx

/-- A command-mode byte: it completes a command of R93's table, or starts or continues one. That the bytes of a command
are kept from one transaction to the next is the model's reading (R91 sends each byte by its own `Cmd`; log 22). What
any other byte does, as after a failed transaction left a command half sent, no rule says: it is a free value, the
model's choice (DESIGN CHOICE, log 29). -/
def Rx.cmdByte (o : Opc) (rx : Rx) (b : Byte) : Rx :=
  match parseWire o (rx.pending ++ [b]) with
  | .complete i _ => { rx.apply i with pending := [] }
  | .incomplete => { rx with pending := rx.pending ++ [b] }
  | .illegal _ => Config.rxNoCommand rx b

/-- The page pointer when it advances: one up, at its window's end back to the start (R146). Past the end the rule does
not say where it goes: a free value, the model's choice (DESIGN CHOICE, log 30). -/
def Rx.nextPage (rx : Rx) : Nat :=
  if rx.page < rx.pageLast then rx.page + 1
  else if rx.page = rx.pageLast then rx.pageFirst
  else (Config.rxPagePast rx).toNat

/-- The pointers advance: columns first, then pages, each wrapping in the window (R146). Where the column pointer is past
the end of its window, as in a window whose first bound is above its last, the rule does not say where the two pointers
go: they are free values, the model's choice (DESIGN CHOICE, log 30). Nothing else of the receiver changes. -/
def Rx.advance (rx : Rx) : Rx :=
  if rx.col < rx.colLast then { rx with col := rx.col + 1 }
  else if rx.col = rx.colLast then { rx with col := rx.colFirst, page := rx.nextPage }
  else { rx with col := (Config.rxColPast rx).toNat, page := (Config.rxPagePast rx).toNat }

/-- A data-mode byte: stored at the pointers in horizontal mode. -/
def Rx.dataByte (o : Opc) (rx : Rx) (v : Byte) : Rx :=
  if rx.mode = o.modeHorizontal then
    { rx with ram := Memory.write rx.ram (rxCell rx.page rx.col) v }.advance
  else Config.rxOtherMode rx v

/-- The bytes of a transaction, in command or data mode. -/
def Rx.bytes (rx : Rx) (o : Opc) (data : Bool) (bs : List Byte) : Rx :=
  if rx.held then Config.rxInReset rx bs
  else if data then bs.foldl (Rx.dataByte o) rx else bs.foldl (Rx.cmdByte o) rx

/-- The reset line (R146: the pulse returns the receiver to its power-on defaults). -/
def Rx.resetLine (rx : Rx) (v : Bit) : Rx :=
  if v = 0#1 then { Config.rxPowerOn with held := true } else { rx with held := false }

/-- One wire event, as the receiver takes it when all of it arrives. -/
def Rx.event (rx : Rx) (c : Cfg) : Event → Rx
  | .regTxn addr bs =>
    match bs with
    | [] => rx
    | ctrl :: bs =>
      if addr = c.busAddr then
        if ctrl = c.ctrlCmd then rx.bytes c.opc false bs
        else if ctrl = c.ctrlData then rx.bytes c.opc true bs
        else rx
      else rx
  | .clkCfg _ => rx
  | .sigDc v => { rx with dc := v }
  | .sigCsel _ => rx
  | .sigRes v => rx.resetLine v
  | .csBytes bs => rx.bytes c.opc (rx.dc == 1#1) bs
  | .delay _ => rx

/-- The event is a transaction (R13). -/
def Event.isTxn : Event → Bool
  | .regTxn _ _ => true
  | .csBytes _ => true
  | .clkCfg _ | .sigDc _ | .sigCsel _ | .sigRes _ | .delay _ => false

/-- The first `k` bytes of a transaction (R137: "any prefix of its bytes, including none or all"). -/
def Event.cut (k : Nat) : Event → Event
  | .regTxn addr bs => .regTxn addr (bs.take k)
  | .csBytes bs => .csBytes (bs.take k)
  | .clkCfg c => .clkCfg c
  | .sigDc v => .sigDc v
  | .sigCsel v => .sigCsel v
  | .sigRes v => .sigRes v
  | .delay us => .delay us

/-- A stretch of the wire trace with the answers its transactions drew: whole when answered `Done`, else any prefix,
`n` numbering the prefixes. -/
def Rx.runAnswered (c : Cfg) : List Event → List Answer → Nat → Rx → Rx
  | [], _, _, rx => rx
  | e :: es, as, n, rx =>
    if e.isTxn then
      match as with
      | .done :: as => Rx.runAnswered c es as n (rx.event c e)
      | .fail :: as => Rx.runAnswered c es as (n + 1) (rx.event c (e.cut (Config.rxTaken n)))
      | [] => Rx.runAnswered c es [] (n + 1) (rx.event c (e.cut (Config.rxTaken n)))
    else Rx.runAnswered c es as n (rx.event c e)

/-- A stretch of the wire trace of which every transaction was answered `Done`. -/
def Rx.run (c : Cfg) (es : List Event) (rx : Rx) : Rx := es.foldl (fun r e => r.event c e) rx

end Sys2Proof.Machine
end

