-- ==== Sys2Proof/Safety.lean ====
section
/-! DEFINITION. What counts as a safe or ended run, the invariant of the machine, and the terms claims use: the wire
events and byte tables of the spec, written from its tables. -/
namespace Sys2Proof.Machine

/-- What the packet buffer holds in each phase (spec R28, R29, R86). -/
def State.packetOk (s : State) : Prop :=
  match s.ph with
  | .idle => s.pkt = []
  | .collect => s.pkt ≠ [] ∧ parsePacket s.pkt = .incomplete
  | .exec => ∃ i, parsePacket s.pkt = .complete i []
  | .fault => parsePacket s.pkt = .incomplete

/-- The invariant of the machine: the framebuffer keeps its canonical form inside `0 .. LEN-1` (R56), the packet
buffer fits the phase, no controller command is staged (R3: the host has twelve operations), no pen stands outside a
text operation (R27), a waiting transaction keeps PSDC in EXEC (R138), and free draws to come are unused. -/
structure State.Inv (s : State) : Prop where
  fbSorted : Memory.wf s.fb
  fbBelow : Memory.below s.cfg.len s.fb
  packet : s.packetOk
  noWire : s.wire = []
  noPen : s.pen = none
  waiting : s.wait.isSome = true → s.ph = .exec
  fresh : s.fbDraw < s.draws

/-- No error has been recorded and nothing hangs (R30, R224, R138). -/
def State.clean (s : State) : Prop := s.busErr = false ∧ s.ph ≠ .fault ∧ s.wait = none

/-- A run has ended (R271): every byte accepted, phase IDLE. -/
def State.ended (s : State) : Prop := s.host = [] ∧ s.ph = .idle

/-- The observation of an ended run (R271): framebuffer, status outputs, wire trace with the answers drawn. -/
structure Observation where
  fb : List Byte
  busErr : Bool
  life : Life
  trace : List Event
  drawn : List Answer
  deriving DecidableEq, Repr

/-- The observation a state shows (R271). -/
def State.observe (s : State) : Observation :=
  { fb := s.fbBytes, busErr := s.busErr, life := s.life, trace := s.trace, drawn := s.drawn }

/-- The events of one answered `Cmd(b)`, by transport (R131, R133). -/
def cmdEvents (c : Cfg) (b : Byte) : List Event :=
  match c.transport with
  | .reg => [.regTxn c.busAddr [c.ctrlCmd, b]]
  | .cs =>
    [ .clkCfg { hz := 10000000, idleLow := true, firstEdge := true }, .sigDc 0, .sigCsel .asserted,
      .csBytes [b], .sigCsel .deasserted ]

/-- The events of one answered `Data(bs)`, by transport (R132, R134). -/
def dataEvents (c : Cfg) (bs : List Byte) : List Event :=
  match c.transport with
  | .reg => [.regTxn c.busAddr (c.ctrlData :: bs)]
  | .cs =>
    [ .clkCfg { hz := 10000000, idleLow := true, firstEdge := true }, .sigDc 1, .sigCsel .asserted,
      .csBytes bs, .sigCsel .deasserted ]

/-- The events of a sequence of answered `Cmd`s. -/
def cmdsEvents (c : Cfg) (bs : List Byte) : List Event := bs.flatMap (cmdEvents c)

/-- The 25 bytes of R162, column "bytes, in order". -/
def initBytes (c : Cfg) : List Byte :=
  [ c.opc.setDisp ||| 0, c.opc.setMemAddr, c.opc.modeHorizontal, c.opc.setStartLine ||| 0, c.opc.setSegRemap ||| 1,
    c.opc.setMuxRatio, BitVec.ofNat 8 (c.h - 1), c.opc.setComOutDir ||| 8, c.opc.setDispOffset, 0,
    c.opc.setComPinCfg, if c.h = 32 then 0x02 else 0x12, c.opc.setClkDiv, 0x80,
    c.opc.setPrecharge, if c.extVcc then 0x22 else 0xF1, c.opc.setVcomDesel, 0x30, c.opc.setContrast, 0xFF,
    c.opc.setEntireOn, c.opc.setNormInv ||| 0, c.opc.setChargePump, if c.extVcc then 0x10 else 0x14,
    c.opc.setDisp ||| 1 ]

/-- The six command bytes of R163, with the columns of R57. -/
def showBytes (c : Cfg) : List Byte :=
  [ c.opc.setColAddr, BitVec.ofNat 8 (if c.w = 64 then 32 else 0),
    BitVec.ofNat 8 (if c.w = 64 then c.w - 1 + 32 else c.w - 1),
    c.opc.setPageAddr, 0, BitVec.ofNat 8 (c.pages - 1) ]

/-- The command table of R93 with the shapes of R91, in the parameters `OPC.*`: which bytes each command is. A field is
OR-ed into the opcode as the value the table gives its bits (C2). -/
inductive CommandRow (o : Opc) : Instr → List Byte → Prop where
  | setDisp (n : Bit) : CommandRow o (.setDisp n) [o.setDisp ||| BitVec.ofNat 8 n.toNat]
  | setMemAddr (m : Byte) : CommandRow o (.setMemAddr m) [o.setMemAddr, m]
  | setStartLine (l : BitVec 6) : CommandRow o (.setStartLine l) [o.setStartLine ||| BitVec.ofNat 8 l.toNat]
  | setSegRemap (r : Bit) : CommandRow o (.setSegRemap r) [o.setSegRemap ||| BitVec.ofNat 8 r.toNat]
  | setMuxRatio (p : Byte) : CommandRow o (.setMuxRatio p) [o.setMuxRatio, p]
  | setComOutDir (d : Bit) : CommandRow o (.setComOutDir d) [o.setComOutDir ||| BitVec.ofNat 8 (8 * d.toNat)]
  | setDispOffset (p : Byte) : CommandRow o (.setDispOffset p) [o.setDispOffset, p]
  | setComPinCfg (p : Byte) : CommandRow o (.setComPinCfg p) [o.setComPinCfg, p]
  | setClkDiv (p : Byte) : CommandRow o (.setClkDiv p) [o.setClkDiv, p]
  | setPrecharge (p : Byte) : CommandRow o (.setPrecharge p) [o.setPrecharge, p]
  | setVcomDesel (p : Byte) : CommandRow o (.setVcomDesel p) [o.setVcomDesel, p]
  | setContrast (p : Byte) : CommandRow o (.setContrast p) [o.setContrast, p]
  | setEntireOn : CommandRow o .setEntireOn [o.setEntireOn]
  | setNormInv (i : Bit) : CommandRow o (.setNormInv i) [o.setNormInv ||| BitVec.ofNat 8 i.toNat]
  | setChargePump (p : Byte) : CommandRow o (.setChargePump p) [o.setChargePump, p]
  | setColAddr (a b : Byte) : CommandRow o (.setColAddr a b) [o.setColAddr, a, b]
  | setPageAddr (a b : Byte) : CommandRow o (.setPageAddr a b) [o.setPageAddr, a, b]

/-- The events of each transaction of an instruction, in order, in a PSDC whose framebuffer holds `fb` when the
instruction starts (R91, R161 to R166). Drawing and PWRON make none (R221). -/
def txnsOf (c : Cfg) (fb : List Byte) : Instr → List (List Event)
  | .init => (initBytes c ++ showBytes c).map (cmdEvents c) ++ [dataEvents c (List.replicate c.len 0)]
  | .showFrame => (showBytes c).map (cmdEvents c) ++ [dataEvents c fb]
  | .contrast v => [cmdEvents c c.opc.setContrast, cmdEvents c v]
  | .invert b => [cmdEvents c (c.opc.setNormInv ||| b.setWidth 8)]
  | .pwroff => [cmdEvents c (c.opc.setDisp ||| 0)]
  | .fill _ | .setpx _ _ _ | .scroll _ _ | .pwron | .glyphs _ _ _ _ _ | .texts _ _ _ | .text _ _ _ _ => []
  | .setDisp n => (encodeWire c.opc (.setDisp n)).map (cmdEvents c)
  | .setMemAddr m => (encodeWire c.opc (.setMemAddr m)).map (cmdEvents c)
  | .setStartLine l => (encodeWire c.opc (.setStartLine l)).map (cmdEvents c)
  | .setSegRemap r => (encodeWire c.opc (.setSegRemap r)).map (cmdEvents c)
  | .setMuxRatio p => (encodeWire c.opc (.setMuxRatio p)).map (cmdEvents c)
  | .setComOutDir d => (encodeWire c.opc (.setComOutDir d)).map (cmdEvents c)
  | .setDispOffset p => (encodeWire c.opc (.setDispOffset p)).map (cmdEvents c)
  | .setComPinCfg p => (encodeWire c.opc (.setComPinCfg p)).map (cmdEvents c)
  | .setClkDiv p => (encodeWire c.opc (.setClkDiv p)).map (cmdEvents c)
  | .setPrecharge p => (encodeWire c.opc (.setPrecharge p)).map (cmdEvents c)
  | .setVcomDesel p => (encodeWire c.opc (.setVcomDesel p)).map (cmdEvents c)
  | .setContrast p => (encodeWire c.opc (.setContrast p)).map (cmdEvents c)
  | .setEntireOn => (encodeWire c.opc .setEntireOn).map (cmdEvents c)
  | .setNormInv i => (encodeWire c.opc (.setNormInv i)).map (cmdEvents c)
  | .setChargePump p => (encodeWire c.opc (.setChargePump p)).map (cmdEvents c)
  | .setColAddr a b => (encodeWire c.opc (.setColAddr a b)).map (cmdEvents c)
  | .setPageAddr a b => (encodeWire c.opc (.setPageAddr a b)).map (cmdEvents c)

/-- The events of a transaction that is never answered: on `CS` chip select is not released (R133, R138). -/
def unanswered (c : Cfg) (es : List Event) : List Event :=
  match c.transport with
  | .reg => es
  | .cs => es.dropLast

/-- The next transaction is never answered and `rest` is what the bus does with the ones after it (R38, R138): the bus
says so, or nothing is listed any more. -/
def NeverAnswered (bus rest : List Reply) : Prop := bus = .never :: rest ∨ (bus = [] ∧ rest = [])

/-- The next transaction fails: the bus answers `Fail`, or a timeout reports a missing answer so (R136, R138). -/
def FailsNext (c : Cfg) (bus rest : List Reply) : Prop :=
  bus = .fail :: rest ∨ (NeverAnswered bus rest ∧ c.busTimeout.isSome = true)

/-- The reply an answer is (R136). -/
def Answer.reply : Answer → Reply
  | .done => .done
  | .fail => .fail

/-- The answer a reply comes to where there is a bus timeout (R138). -/
def Reply.expired : Reply → Answer
  | .done => .done
  | .fail => .fail
  | .never => .fail

/-- The length of a host packet (R83, R87), or of a controller command (R91). -/
def packetLength : Instr → Nat
  | .fill _ => 2
  | .setpx _ _ _ => 6
  | .scroll _ _ => 5
  | .pwron | .init | .showFrame | .pwroff => 1
  | .contrast _ | .invert _ => 2
  | .glyphs _ _ _ _ _ => 8
  | .texts t _ _ => 6 + t.length
  | .text t _ _ _ => 7 + t.length
  | .setDisp _ | .setStartLine _ | .setSegRemap _ | .setComOutDir _ | .setEntireOn | .setNormInv _ => 1
  | .setMemAddr _ | .setMuxRatio _ | .setDispOffset _ | .setComPinCfg _ | .setClkDiv _ | .setPrecharge _
  | .setVcomDesel _ | .setContrast _ | .setChargePump _ => 2
  | .setColAddr _ _ | .setPageAddr _ _ => 3

/-- The twelve opcodes of R84. -/
def hostOpcodes : List Byte := [0x01, 0x02, 0x03, 0x10, 0x11, 0x12, 0x13, 0x14, 0x15, 0x20, 0x21, 0x22]

/-- The drawing operations (R259). -/
def isDrawing : Instr → Bool
  | .fill _ | .setpx _ _ _ | .scroll _ _ | .glyphs _ _ _ _ _ | .texts _ _ _ | .text _ _ _ _ => true
  | .pwron | .init | .showFrame | .contrast _ | .invert _ | .pwroff
  | .setDisp _ | .setMemAddr _ | .setStartLine _ | .setSegRemap _ | .setMuxRatio _ | .setComOutDir _
  | .setDispOffset _ | .setComPinCfg _ | .setClkDiv _ | .setPrecharge _ | .setVcomDesel _ | .setContrast _
  | .setEntireOn | .setNormInv _ | .setChargePump _ | .setColAddr _ _ | .setPageAddr _ _ => false

/-- The two string operations, the only ones with a pen (R27). -/
def isString : Instr → Bool
  | .texts _ _ _ | .text _ _ _ _ => true
  | .fill _ | .setpx _ _ _ | .scroll _ _ | .glyphs _ _ _ _ _
  | .pwron | .init | .showFrame | .contrast _ | .invert _ | .pwroff
  | .setDisp _ | .setMemAddr _ | .setStartLine _ | .setSegRemap _ | .setMuxRatio _ | .setComOutDir _
  | .setDispOffset _ | .setComPinCfg _ | .setClkDiv _ | .setPrecharge _ | .setVcomDesel _ | .setContrast _
  | .setEntireOn | .setNormInv _ | .setChargePump _ | .setColAddr _ _ | .setPageAddr _ _ => false

/-- The rows the scaled path draws for a character: its entry, else the space glyph's (R190). -/
def rowsDrawn (c : Cfg) (ch : Byte) : Rows := (tableFind c.glyph ch).getD ((tableFind c.glyph 0x20).getD blankRows)

/-- Pixel `(x, y)` lies in the `scale x scale` block of a set bit of the pattern with its corner at `(gx, gy)`
(R191): row `r` of the pattern, column `c`, bit `7 - c`. -/
def BlockHit (rows : Rows) (gx gy : Int) (scale : Nat) (x y : Int) : Prop :=
  ∃ r < 8, ∃ c < 8, ∃ sy < scale, ∃ sx < scale, (rows.toList.getD r 0).getLsbD (7 - c) = true ∧
    x = gx + (c * scale + sx : Nat) ∧ y = gy + (r * scale + sy : Nat)

/-- `advance(i)` of R193, in the parameters of R192. -/
def textsAdvanceAt (c : Cfg) (t : List Byte) (i : Nat) : Int :=
  (if t[i]? = some 0x2E then c.dotAdv else c.textAdv) - (if t[i + 1]? = some 0x2E then c.dotLookahead else 0)

/-- The pen before character `i`: the sum of the advances before it (R192). -/
def textsPenAt (c : Cfg) (t : List Byte) (i : Nat) : Int := ((List.range i).map (textsAdvanceAt c t)).sum

/-- Where character `i` is drawn, relative to `x`: at the pen, a point `DOT_SHIFT` to the left of it (R192, R193). -/
def textsGlyphX (c : Cfg) (t : List Byte) (i : Nat) : Int :=
  textsPenAt c t i - (if t[i]? = some 0x2E then c.dotShift else 0)

/-- Operations one after another, each to completion (R60). -/
def runOps : List Instr → State → Option State
  | [], s => some s
  | i :: is, s =>
    match exec i s with
    | .next t => runOps is t
    | .fault _ => none
    | .refused _ => none

/-- The event belongs to the register transport (R13). -/
def Event.isReg : Event → Bool
  | .regTxn _ _ => true
  | .csBytes _ | .clkCfg _ | .sigDc _ | .sigCsel _ | .sigRes _ | .delay _ => false

/-- The event configures the clock (R13). -/
def Event.isClk : Event → Bool
  | .clkCfg _ => true
  | .regTxn _ _ | .csBytes _ | .sigDc _ | .sigCsel _ | .sigRes _ | .delay _ => false

/-- The invariant of the bus side: one answer for each transaction (R136; one a bus timeout ended counts as answered
`Fail`: log 21), but for the one that waits (log 11); the register transport emits transactions only (R13) and leaves
the lines, which R32 does not give it, at their reset levels (log 18); the chip-select transport configures its clock
before every transaction (R135) and holds chip select released between transactions (R133). -/
structure State.BusInv (s : State) : Prop where
  answers : (s.trace.filter Event.isTxn).length = s.drawn.length + (if s.wait.isSome then 1 else 0)
  regEvents : s.cfg.transport = .reg → ∀ e ∈ s.trace, e.isReg = true
  regLines : s.cfg.transport = .reg → s.csel = .deasserted ∧ s.dc = 0 ∧ s.res = 0
  csEvents : s.cfg.transport = .cs → ∀ e ∈ s.trace, e.isReg = false
  csClocks : s.cfg.transport = .cs → (s.trace.filter Event.isClk).length = (s.trace.filter Event.isTxn).length
  csReleased : s.cfg.transport = .cs → s.wait = none → s.csel = .deasserted

end Sys2Proof.Machine
end

