-- ==== Sys2Proof/Certificates/Slice0/Obligations.lean ====
section
/-! DEFINITION. The statements for the provers. Each docstring says which rule of spec/ it formalises. -/
open Sys2Proof Sys2Proof.Machine

/-- Vectors V44, V46, V50, V55 and the bit patterns of the command rows, with the default opcodes (log 3). -/
def Obligations.SpecWordsDecode : Prop :=
  decodeAll true [0x02, 0x2C, 0x01, 0x00, 0x80, 0x00] = some (.setpx 300 (-32768) 0) ∧
  decodeAll true [0x03, 0xFD, 0xFF, 0xF7, 0xFF] = some (.scroll (-3) (-9)) ∧
  decodeAll true [0x13, 0x40] = some (.contrast 0x40) ∧
  decodeAll true [0x21, 0x00, 0x00, 0x00, 0x00, 0x04, 0x31, 0x32, 0x2E, 0x33] =
    some (.texts [0x31, 0x32, 0x2E, 0x33] 0 0) ∧
  decodeAll false [0xC8] = some (.setComOutDir 1) ∧
  decodeAll false [0x21, 0x20, 0x5F] = some (.setColAddr 32 95)

/-- R81 to R83: no operand bit of a packet is dropped, and packets follow each other with nothing between them. -/
def Obligations.HostPacketRoundTrip : Prop :=
  ∀ (i : Instr) (rest : List Byte), i.isHost = true → i.wellFormed = true →
    parsePacket (encodePacket i ++ rest) = .complete i rest

/-- R91, R93 with the default opcodes (log 3): no field bit is dropped and no two commands share a byte sequence. -/
def Obligations.CommandRoundTrip : Prop :=
  ∀ (i : Instr) (rest : List Byte), i.isHost = false →
    parseWire Opc.std (encodeWire Opc.std i ++ rest) = .complete i rest

/-- R87: the shortest packet is 1 byte, the longest 262. -/
def Obligations.PacketLengthsAreTheTable : Prop :=
  (∀ (bs : List Byte) (i : Instr), parsePacket bs = .complete i [] →
      i.isHost = true ∧ bs.length = packetLength i ∧ 1 ≤ bs.length ∧ bs.length ≤ 262) ∧
  (∃ bs i, parsePacket bs = .complete i [] ∧ bs.length = 1) ∧
  (∃ bs i, parsePacket bs = .complete i [] ∧ bs.length = 262)

/-- R86: when the last byte has arrived the operation executes, so no byte of the next packet is swallowed. -/
def Obligations.PacketEndsAtItsLastByte : Prop :=
  ∀ (p : List Byte) (b : Byte) (i : Instr) (rest : List Byte),
    parsePacket p = .incomplete → parsePacket (p ++ [b]) = .complete i rest → rest = []

/-- R88. -/
def Obligations.ReservedOpcodeLatchesFault : Prop :=
  (∀ (s : State) (b : Byte) (rest : List HostAct), s.cfg.legal = true → s.ph = .idle → s.pkt = [] →
      s.host = .send b :: rest → b ∉ hostOpcodes →
      step s = .next { s with host := rest, ph := .fault, rsp := some .illegalCommand, rdata := none }) ∧
  (∀ s s' : State, s.ph = .fault → step s = .next s' → (∀ rest, s.host ≠ .reset :: rest) →
      s'.ph = .fault ∧ s'.pkt = s.pkt)

/-- R89. -/
def Obligations.ReservedBitLatchesFault : Prop :=
  ∀ (s : State) (c : Byte) (rest : List HostAct), s.cfg.legal = true → s.ph = .collect →
    (s.pkt = [0x01] ∨ s.pkt = [0x14] ∨ (∃ a0 a1 a2 a3, s.pkt = [0x02, a0, a1, a2, a3]) ∨
      (∃ ch a0 a1 a2 a3, s.pkt = [0x20, ch, a0, a1, a2, a3]) ∨ (∃ a0 a1 a2 a3, s.pkt = [0x22, a0, a1, a2, a3])) →
    c ≠ 0x00 → c ≠ 0x01 → s.host = .send c :: rest →
    step s = .next { s with host := rest, ph := .fault, rsp := some .illegalCommand, rdata := none }

/-- R29, R86; that the operation runs in a step of its own is the model's choice (log 10). -/
def Obligations.BytesMoveThePhase : Prop :=
  ∀ (s : State) (b : Byte) (rest : List HostAct), s.cfg.legal = true → (s.ph = .idle ∨ s.ph = .collect) →
    s.host = .send b :: rest →
    (parsePacket (s.pkt ++ [b]) = .incomplete → step s = .next { s with
      host := rest, ph := .collect, pkt := s.pkt ++ [b], rsp := none, rdata := none }) ∧
    (∀ i r, parsePacket (s.pkt ++ [b]) = .complete i r → step s = .next { s with
      host := rest, ph := .exec, pkt := s.pkt ++ [b], rsp := none, rdata := none })

/-- R60: operations are executed one at a time, each to completion. The clause on a non-empty staging slot is the
model's own choice (log 13), and so are the operation's step of its own (log 10) and the host's pause (log 9). -/
def Obligations.StepRunsTheDecodedInstruction : Prop :=
  ∀ (s : State) (i : Instr) (rest : List Byte) (h : List HostAct), s.cfg.legal = true → s.ph = .exec → s.wait = none →
    ((s.host = [] ∧ h = []) ∨ (∃ b r, s.host = .send b :: r ∧ h = s.host) ∨ s.host = .pause :: h) →
    (s.wire = [] → parsePacket s.pkt = .complete i rest → step s = exec i { s with
      host := h, rsp := none, rdata := none }) ∧
    (s.wire ≠ [] → parseWire s.cfg.opc s.wire = .complete i rest →
      step s = exec i { s with host := h, rsp := none, rdata := none })

/-- R39: `cmd_ready` is 0 in EXEC, so the byte is not transferred; that it stays at the head of the host's list is the
model's choice (log 9). -/
def Obligations.ByteWaitsWhileExecuting : Prop :=
  ∀ (s s' : State) (b : Byte) (rest : List HostAct), s.ph = .exec → s.wait = none → s.host = .send b :: rest →
    step s = .next s' → s'.host = s.host

/-- R224: FAULT is never left except by reset. -/
def Obligations.FaultChangesNothingButTheReadPort : Prop :=
  ∀ s s' : State, s.ph = .fault → step s = .next s' → (∀ rest, s.host ≠ .reset :: rest) →
    s' = { s with host := s'.host, rsp := none, rdata := s'.rdata, draws := s'.draws }

/-- R41; that the unspecified byte is `Config.portByte` of a counter that advances is the model's choice (log 6). -/
def Obligations.ReadBackPortReadsWithoutSideEffect : Prop :=
  ∀ (s : State) (i : Nat) (rest : List HostAct), s.cfg.legal = true → s.host = .read i :: rest →
    (s.ph ≠ .exec → i < s.cfg.len →
      step s = .next { s with host := rest, rsp := none, rdata := some (s.fbRead i) }) ∧
    (s.ph = .exec ∨ s.cfg.len ≤ i →
      step s = .next { s with
        host := rest, rsp := none, rdata := some (Config.portByte s.draws), draws := s.draws + 1 })

/-- R36, R250; the values not in R36's table are the model's choice (logs 4, 5, 8, 9). -/
def Obligations.ResetGivesTheResetValues : Prop :=
  ∀ (s : State) (rest : List HostAct), s.cfg.legal = true → s.host = .reset :: rest → ∃ t, step s = .next t ∧
    t.cfg = s.cfg ∧ t.ph = .idle ∧ t.pkt = [] ∧ t.pen = none ∧ t.busErr = false ∧ t.life = .reset ∧
    t.csel = .deasserted ∧ t.dc = 0 ∧ t.res = 0 ∧ t.trace = [] ∧ t.drawn = [] ∧ t.wait = none ∧ t.rsp = none ∧
    t.rdata = none ∧ t.wire = [] ∧ t.host = rest ∧ t.bus = s.bus ∧ t.draws = s.draws + 1 ∧
    (∀ i, t.fbRead i = Config.fbAt s.draws i) ∧ t.temp0 = Config.tempAt s.draws 0 ∧
    t.temp1 = Config.tempAt s.draws 1 ∧ t.clkCfg = Config.clkAt s.draws

/-- R36's table; the configuration is the model's choice (logs 2, 7). -/
def Obligations.ResetStateHasTheResetValues : Prop :=
  State.reset.ph = .idle ∧ State.reset.pkt = [] ∧ State.reset.busErr = false ∧ State.reset.life = .reset ∧
  State.reset.csel = .deasserted ∧ State.reset.dc = 0 ∧ State.reset.res = 0 ∧ State.reset.trace = [] ∧
  State.reset.fb = [] ∧ State.reset.cfg.legal = true ∧ State.reset.cfg.glyphOk

/-- R29 to R31, R40. -/
def Obligations.StatusOutputsFollowTheState : Prop :=
  (∀ s : State, (s.busy = true ↔ s.ph = .exec) ∧ (s.faulted = true ↔ s.ph = .fault) ∧
      (s.cmdReady = true ↔ s.ph = .idle ∨ s.ph = .collect)) ∧
  (Life.code .reset = 0 ∧ Life.code .powered = 1 ∧ Life.code .on = 2 ∧ Life.code .sleep = 3) ∧
  (Rsp.code .ok = 0x00 ∧ Rsp.code .busFailure = 0x01 ∧ Rsp.code .illegalCommand = 0x02)

/-- R40: `rsp_valid = 1` for one step; that the idle steps count is the model's choice (log 17), and so is the
host's pause (log 9). -/
def Obligations.QuietHostLeavesIdleAlone : Prop :=
  ∀ s : State, s.cfg.legal = true → s.ph ≠ .exec →
    (s.host = [] → step s = .next { s with rsp := none, rdata := none }) ∧
    (∀ rest, s.host = .pause :: rest → step s = .next { s with host := rest, rsp := none, rdata := none })

/-- R9: refused at construction; that equal control bytes are refused too is D10's requirement (log 23). -/
def Obligations.IllegalConfigurationIsRefused : Prop :=
  ∀ s : State, (s.cfg.legal = false → step s = .refused .badConfig) ∧
    (s.cfg.legal = true → ∀ r, step s ≠ .refused r)

/-- R28, R29, R56, R86: the machine's invariant, from every state that meets it. The clauses on the canonical form (log 19),
the staging slot (log 13), the pen (log 15), PKT in FAULT and IDLE (logs 16, 25), `wait` (log 11) and the free draws
(logs 4, 6) are about the model's own conventions. -/
def Obligations.StepKeepsTheInvariant : Prop :=
  ∀ s s' : State, s.Inv → step s = .next s' → s'.Inv

/-- R36; the clauses on the model's own fields and conventions are logs 4, 6, 8, 11, 13, 15, 18 and 21. -/
def Obligations.ResetMeetsTheInvariant : Prop :=
  State.reset.Inv ∧ State.reset.BusInv

/-- R135: the trace of n transactions on CS holds n ClkCfg events; R136: one answer per transaction. The clause on CSEL, DC
and RES on REG is the model's own (log 18, R32 has no such lines there); that a transaction ended by a bus timeout
counts as answered is log 21, and that one never answered stands in `wait` is log 11. -/
def Obligations.StepKeepsTheBusInvariant : Prop :=
  ∀ s s' : State, s.BusInv → step s = .next s' → s'.BusInv

/-- R7, R23: hardwired at construction; that they stand in a field of State is the model's choice (log 1). -/
def Obligations.ConfigurationNeverChanges : Prop :=
  ∀ s s' : State, step s = .next s' → s'.cfg = s.cfg

/-- R30: never cleared by any operation, cleared only by reset. -/
def Obligations.BusErrIsSticky : Prop :=
  (∀ s s' : State, step s = .next s' → s.busErr = true → (∀ rest, s.host ≠ .reset :: rest) → s'.busErr = true) ∧
  (∀ (s s' : State) (rest : List HostAct), s.host = .reset :: rest → step s = .next s' → s'.busErr = false)

/-- R13, R136: events are appended and one answer is taken for a transaction; the list of replies is the model's (log 8, log 21). -/
def Obligations.TraceOnlyGrows : Prop :=
  ∀ (i : Instr) (s t : State), exec i s = .next t →
    ∃ es as used, t.trace = s.trace ++ es ∧ t.drawn = s.drawn ++ as ∧ s.bus = used ++ t.bus ∧
      (s.cfg.busTimeout = none →
        used = as.map Answer.reply ∨ (used = as.map Answer.reply ++ [.never] ∧ t.wait.isSome = true)) ∧
      (s.cfg.busTimeout.isSome = true →
        as = used.map Reply.expired ∨ (as = used.map Reply.expired ++ [.fail] ∧ t.bus = []))

/-- R31. -/
def Obligations.LifeMovesOnlyWhenItsOperationsSucceed : Prop :=
  ∀ (i : Instr) (s t : State), exec i s = .next t → t.life ≠ s.life →
    t.rsp = some .ok ∧ ((i = .pwron ∧ t.life = .powered) ∨ (i = .init ∧ t.life = .on) ∨
      (i = .pwroff ∧ t.life = .sleep))

/-- R31: LIFE is an observation aid, not a guard. -/
def Obligations.LifeGuardsNothing : Prop :=
  ∀ (i : Instr) (s t : State) (l : Life), exec i s = .next t →
    ∃ u, exec i { s with life := l } = .next u ∧ u = { t with life := u.life }

/-- R221, R222, R138. That the wait is a next state in EXEC with the transaction in `wait` is the model's choice (log 11),
and so is the response of a controller command that runs by itself (log 13). -/
def Obligations.EveryInstructionEndsOneOfThreeWays : Prop :=
  ∀ (i : Instr) (s : State), ∃ t, exec i s = .next t ∧
    ((t.ph = .idle ∧ t.pkt = [] ∧ t.rsp = some .ok ∧ t.busErr = s.busErr) ∨
      (t.ph = .idle ∧ t.pkt = [] ∧ t.rsp = some .busFailure ∧ t.busErr = true) ∨
      (t.ph = .exec ∧ t.pkt = s.pkt ∧ t.wait.isSome = true ∧ t.rsp = s.rsp ∧ t.busErr = s.busErr)) ∧
    (isDrawing i = true ∨ i = .pwron → t.rsp = some .ok)

/-- R259: drawing changes only FB; what the six do to FB is in the statements that follow. -/
def Obligations.DrawingFrame : Prop :=
  ∀ (i : Instr) (s : State), isDrawing i = true → ∃ fb, exec i s = .next { s with
    fb := fb, ph := .idle, pkt := [], wire := [], rsp := some .ok,
    pen := if isString i then none else s.pen }

/-- R56, for writes: no operation can form a byte index outside 0 .. LEN-1; reads are the next statement. -/
def Obligations.DrawingStaysInsideTheFramebuffer : Prop :=
  ∀ (i : Instr) (s t : State), s.Inv → s.cfg.legal = true → exec i s = .next t →
    (∀ k, s.cfg.len ≤ k → t.fbRead k = s.fbRead k) ∧ (∀ c ∈ t.fb, c.1 < s.cfg.len)

/-- R56, for reads: no operation can form a byte index outside 0 .. LEN-1. -/
def Obligations.InstructionsReadOnlyInsideTheFramebuffer : Prop :=
  ∀ (i : Instr) (s t u : State), s.cfg.legal = true → u = { s with fb := u.fb, fbDraw := u.fbDraw } →
    (∀ k, k < s.cfg.len → u.fbRead k = s.fbRead k) → exec i s = .next t →
    ∃ v, exec i u = .next v ∧ v = { t with fb := v.fb, fbDraw := v.fbDraw } ∧
      ∀ k, k < s.cfg.len → v.fbRead k = t.fbRead k

/-- R111. -/
def Obligations.FillSetsEveryPixel : Prop :=
  ∀ (s : State) (c : Bit), ∃ t, exec (.fill c) s = .next t ∧
    t = { s with fb := t.fb, ph := .idle, pkt := [], wire := [], rsp := some .ok } ∧
    (∀ k, k < s.cfg.len → t.fbRead k = if c = 1 then 0xFF else 0x00) ∧
    (s.cfg.legal = true → ∀ x y, inRange s.cfg x y = true → t.px x y = c) ∧
    (∀ fb, ∃ u, exec (.fill c) { s with fb := fb } = .next u ∧ u.fb = t.fb)

/-- R112, through SETPX, the one operation that is a single SetPx (R113). -/
def Obligations.SetPxWritesOneBit : Prop :=
  ∀ (s : State) (x y : S16) (c : Bit), ∃ t, exec (.setpx x y c) s = .next t ∧
    t = { s with fb := t.fb, ph := .idle, pkt := [], wire := [], rsp := some .ok } ∧
    (if 0 ≤ x.toInt ∧ x.toInt < s.cfg.w ∧ 0 ≤ y.toInt ∧ y.toInt < s.cfg.h then
      t.fbRead (y.toInt.toNat / 8 * s.cfg.w + x.toInt.toNat) =
        (s.fbRead (y.toInt.toNat / 8 * s.cfg.w + x.toInt.toNat) &&& ~~~(1#8 <<< (y.toInt.toNat % 8))) |||
          (c.setWidth 8 <<< (y.toInt.toNat % 8)) ∧
      ∀ k, k ≠ y.toInt.toNat / 8 * s.cfg.w + x.toInt.toNat → t.fbRead k = s.fbRead k
    else t.fb = s.fb)

/-- R113, and S1 of 95_test_vectors.md. -/
def Obligations.SetpxSetsOnePixel : Prop :=
  ∀ (s : State) (x y : S16) (c : Bit), ∃ t, exec (.setpx x y c) s = .next t ∧ t.rsp = some .ok ∧
    t.trace = s.trace ∧ t.busErr = s.busErr ∧ t.life = s.life ∧
    (∀ px py, inRange s.cfg px py = true →
      t.px px py = if px = x.toInt ∧ py = y.toInt then c else s.px px py) ∧
    (inRange s.cfg x.toInt y.toInt = false → t.fb = s.fb)

/-- R114; SCROLL_FILL is the parameter, 0 in PSDC. -/
def Obligations.ScrollMovesEveryPixel : Prop :=
  ∀ (s : State) (dx dy : S16), s.cfg.legal = true → ∃ t, exec (.scroll dx dy) s = .next t ∧ t.rsp = some .ok ∧
    t.trace = s.trace ∧ t.busErr = s.busErr ∧ t.life = s.life ∧
    (∀ x y, inRange s.cfg x y = true →
      t.px x y = if 0 ≤ x - dx.toInt ∧ x - dx.toInt < s.cfg.w ∧ 0 ≤ y - dy.toInt ∧ y - dy.toInt < s.cfg.h
        then s.px (x - dx.toInt) (y - dy.toInt) else s.cfg.scrollFill) ∧
    (dx = 0 → dy = 0 → ∀ k, k < s.cfg.len → t.fbRead k = s.fbRead k) ∧
    ((s.cfg.w : Int) ≤ |dx.toInt| ∨ (s.cfg.h : Int) ≤ |dy.toInt| →
      ∀ x y, inRange s.cfg x y = true → t.px x y = s.cfg.scrollFill) ∧
    Cfg.initial.scrollFill = 0

/-- R191, with the lookup of R190. -/
def Obligations.GlyphsPaintsTheBlocksOfThePattern : Prop :=
  ∀ (s : State) (ch : Byte) (x y : S16) (c : Bit) (scale : Byte),
    ∃ t, exec (.glyphs ch x y c scale) s = .next t ∧ t.rsp = some .ok ∧ t.trace = s.trace ∧
    t.busErr = s.busErr ∧ t.life = s.life ∧
    (∀ px py, inRange s.cfg px py = true →
      (BlockHit (rowsDrawn s.cfg ch) x.toInt y.toInt scale.toNat px py → t.px px py = c) ∧
      (¬ BlockHit (rowsDrawn s.cfg ch) x.toInt y.toInt scale.toNat px py → t.px px py = s.px px py)) ∧
    (scale = 0 → t.fb = s.fb)

/-- R190, R25; S6 of 95_test_vectors.md. -/
def Obligations.AbsentGlyphPaintsNothing : Prop :=
  ∀ (s : State) (ch : Byte) (x y : S16) (c : Bit) (scale : Byte), s.cfg.glyphOk →
    (tableFind s.cfg.glyph ch = none ∨ ch = 0x5A) →
    ∃ t, exec (.glyphs ch x y c scale) s = .next t ∧ t.fb = s.fb ∧ t.rsp = some .ok

/-- R192, R193: the formula of the document, which C3 lets win. -/
def Obligations.TextsPaintsGlyphsAtTheFormulaPlaces : Prop :=
  ∀ (s : State) (text : List Byte) (x y : S16), ∃ t, exec (.texts text x y) s = .next t ∧ t.rsp = some .ok ∧
    t.pen = none ∧
    ∀ px py, inRange s.cfg px py = true →
      ((∃ i ch, text[i]? = some ch ∧
          BlockHit (rowsDrawn s.cfg ch) (x.toInt + textsGlyphX s.cfg text i) y.toInt 2 px py) → t.px px py = 1) ∧
      ((¬ ∃ i ch, text[i]? = some ch ∧
          BlockHit (rowsDrawn s.cfg ch) (x.toInt + textsGlyphX s.cfg text i) y.toInt 2 px py) →
        t.px px py = s.px px py)

/-- R194; FONT8 is the open parameter of R26. -/
def Obligations.TextPaintsTheFontEightPixelsApart : Prop :=
  ∀ (s : State) (text : List Byte) (x y : S16) (c : Bit), ∃ t, exec (.text text x y c) s = .next t ∧
    t.rsp = some .ok ∧ t.pen = none ∧ t.trace = s.trace ∧ t.busErr = s.busErr ∧ t.life = s.life ∧
    (∀ px py, inRange s.cfg px py = true →
      ((∃ i ch, text[i]? = some ch ∧ ∃ r < 8, ∃ k < 8, fontBit s.cfg ch k r = 1 ∧
          px = x.toInt + (8 * i + k : Nat) ∧ py = y.toInt + (r : Nat)) → t.px px py = c) ∧
      ((¬ ∃ i ch, text[i]? = some ch ∧ ∃ r < 8, ∃ k < 8, fontBit s.cfg ch k r = 1 ∧
          px = x.toInt + (8 * i + k : Nat) ∧ py = y.toInt + (r : Nat)) → t.px px py = s.px px py)) ∧
    (text = [] → t.fb = s.fb)

/-- R90: there is no other no-operation. -/
def Obligations.EmptyStringsChangeNothing : Prop :=
  ∀ (s : State) (x y : S16) (c : Bit),
    exec (.texts [] x y) s = .next { s with ph := .idle, pkt := [], wire := [], rsp := some .ok, pen := none } ∧
    exec (.text [] x y c) s = .next { s with ph := .idle, pkt := [], wire := [], rsp := some .ok, pen := none }

/-- R115, extended from fill, setPixel and scroll to all six drawing operations. -/
def Obligations.DrawingIsDeterministicFromFill : Prop :=
  ∀ (s1 s2 : State) (c : Bit) (ops : List Instr), s1.cfg = s2.cfg → s1.cfg.legal = true →
    (∀ i ∈ ops, isDrawing i = true) →
    ∃ t1 t2, runOps (.fill c :: ops) s1 = some t1 ∧ runOps (.fill c :: ops) s2 = some t2 ∧ t1.fb = t2.fb

/-- R160. -/
def Obligations.PwronPulsesResetOnCs : Prop :=
  ∀ s : State,
    (s.cfg.transport = .reg → exec .pwron s = .next { s with
      life := .powered, ph := .idle, pkt := [], wire := [], rsp := some .ok }) ∧
    (s.cfg.transport = .cs → exec .pwron s = .next { s with
      life := .powered, ph := .idle, pkt := [], wire := [], rsp := some .ok, res := 1,
      trace := s.trace ++ [.sigRes 1, .delay 1000, .sigRes 0, .delay 10000, .sigRes 1] })

/-- R162; the default opcodes are log 3. -/
def Obligations.InitTableIsTheSpecTable : Prop :=
  (∀ c : Cfg, (initTable c).length = 16 ∧ (initTable c).flatMap (encodeWire c.opc) = initBytes c ∧
      (initBytes c).length = 25) ∧
  (∀ c : Cfg, c.opc = Opc.std → c.h = 64 → c.extVcc = false → initBytes c =
    [0xAE, 0x20, 0x00, 0x40, 0xA1, 0xA8, 0x3F, 0xC8, 0xD3, 0x00, 0xDA, 0x12, 0xD5, 0x80, 0xD9, 0xF1, 0xDB, 0x30,
      0x81, 0xFF, 0xA4, 0xA6, 0x8D, 0x14, 0xAF]) ∧
  (∀ (s : State) (r : List Reply), s.bus = List.replicate 25 .done ++ r → ∃ t, walk (initTable s.cfg) s = .ok t ∧
      t.trace = s.trace ++ (initBytes s.cfg).flatMap (cmdEvents s.cfg) ∧ t.bus = r)

/-- R161 to R163. -/
def Obligations.InitSendsTheTableClearsAndFlushes : Prop :=
  ∀ (s : State) (r : List Reply), s.bus = List.replicate 32 .done ++ r → ∃ t, exec .init s = .next t ∧
    t.rsp = some .ok ∧ t.ph = .idle ∧ t.life = .on ∧ t.busErr = s.busErr ∧ t.bus = r ∧
    t.drawn = s.drawn ++ List.replicate 32 .done ∧
    t.trace = s.trace ++ cmdsEvents s.cfg (initBytes s.cfg) ++ cmdsEvents s.cfg (showBytes s.cfg) ++
      dataEvents s.cfg (List.replicate s.cfg.len 0x00) ∧
    ∀ k, k < s.cfg.len → t.fbRead k = 0x00

/-- R161, R222; V9 (b) to (d). -/
def Obligations.InitFailureClearsOnlyAfterTheTable : Prop :=
  ∀ (s : State) (k : Nat) (r : List Reply), k < 32 → s.bus = List.replicate k .done ++ .fail :: r →
    ∃ t, exec .init s = .next t ∧ t.rsp = some .busFailure ∧ t.ph = .idle ∧ t.busErr = true ∧ t.life = s.life ∧
    t.bus = r ∧ (k < 25 → t.fb = s.fb) ∧ (25 ≤ k → ∀ j, j < s.cfg.len → t.fbRead j = 0x00)

/-- R163. -/
def Obligations.ShowSendsTheWindowAndTheFramebuffer : Prop :=
  ∀ (s : State) (r : List Reply),
    (s.bus = List.replicate 7 .done ++ r → ∃ t, exec .showFrame s = .next t ∧ t.rsp = some .ok ∧ t.fb = s.fb ∧
      t.fbDraw = s.fbDraw ∧ t.life = s.life ∧ t.busErr = s.busErr ∧ t.bus = r ∧
      t.trace = s.trace ++ cmdsEvents s.cfg (showBytes s.cfg) ++
        dataEvents s.cfg ((List.range s.cfg.len).map s.fbRead)) ∧
    (∀ k, k < 7 → s.bus = List.replicate k .done ++ .fail :: r → ∃ t, exec .showFrame s = .next t ∧
      t.rsp = some .busFailure ∧ t.busErr = true ∧ t.fb = s.fb ∧ t.fbDraw = s.fbDraw ∧ t.life = s.life)

/-- R134, V5 and R132: what a Data transaction leaves in the registers, whatever its answer. -/
def Obligations.DataSetsTheLinesAndLeavesTemp : Prop :=
  ∀ (i : Instr) (s : State) (k : Nat) (a : Answer) (r : List Reply),
    (i = .showFrame ∧ k = 6) ∨ (i = .init ∧ k = 31) → s.bus = List.replicate k .done ++ a.reply :: r →
    ∃ t, exec i s = .next t ∧ t.res = s.res ∧
    (s.cfg.transport = .reg → t.temp0 = s.cfg.ctrlCmd ∧ t.temp1 = BitVec.ofNat 8 (s.cfg.pages - 1) ∧
      t.csel = s.csel ∧ t.dc = s.dc ∧ t.clkCfg = s.clkCfg) ∧
    (s.cfg.transport = .cs → t.temp0 = s.temp0 ∧ t.temp1 = s.temp1 ∧ t.dc = 1 ∧ t.csel = .deasserted ∧
      t.clkCfg = { hz := 10000000, idleLow := true, firstEdge := true })

/-- R164. -/
def Obligations.ContrastSendsTwoCommands : Prop :=
  ∀ (s : State) (v : Byte) (r : List Reply),
    (s.bus = .done :: .done :: r → ∃ t, exec (.contrast v) s = .next t ∧
      t = { s with
        temp0 := t.temp0, temp1 := t.temp1, csel := t.csel, dc := t.dc, clkCfg := t.clkCfg, trace := t.trace,
        drawn := t.drawn, bus := r, ph := .idle, pkt := [], wire := [], rsp := some .ok } ∧
      t.trace = s.trace ++ cmdEvents s.cfg s.cfg.opc.setContrast ++ cmdEvents s.cfg v) ∧
    (s.bus = .fail :: r → ∃ t, exec (.contrast v) s = .next t ∧
      t = { s with
        temp0 := t.temp0, temp1 := t.temp1, csel := t.csel, dc := t.dc, clkCfg := t.clkCfg, trace := t.trace,
        drawn := t.drawn, bus := r, ph := .idle, pkt := [], wire := [], rsp := some .busFailure, busErr := true } ∧
      t.trace = s.trace ++ cmdEvents s.cfg s.cfg.opc.setContrast) ∧
    (s.bus = .done :: .fail :: r → ∃ t, exec (.contrast v) s = .next t ∧
      t = { s with
        temp0 := t.temp0, temp1 := t.temp1, csel := t.csel, dc := t.dc, clkCfg := t.clkCfg, trace := t.trace,
        drawn := t.drawn, bus := r, ph := .idle, pkt := [], wire := [], rsp := some .busFailure, busErr := true } ∧
      t.trace = s.trace ++ cmdEvents s.cfg s.cfg.opc.setContrast ++ cmdEvents s.cfg v)

/-- R165. -/
def Obligations.InvertSendsOneCommand : Prop :=
  ∀ (s : State) (b : Bit) (r : List Reply),
    (s.bus = .done :: r → ∃ t, exec (.invert b) s = .next t ∧
      t = { s with
        temp0 := t.temp0, temp1 := t.temp1, csel := t.csel, dc := t.dc, clkCfg := t.clkCfg, trace := t.trace,
        drawn := t.drawn, bus := r, ph := .idle, pkt := [], wire := [], rsp := some .ok } ∧
      t.trace = s.trace ++ cmdEvents s.cfg (s.cfg.opc.setNormInv ||| BitVec.ofNat 8 b.toNat)) ∧
    (s.bus = .fail :: r → ∃ t, exec (.invert b) s = .next t ∧
      t = { s with
        temp0 := t.temp0, temp1 := t.temp1, csel := t.csel, dc := t.dc, clkCfg := t.clkCfg, trace := t.trace,
        drawn := t.drawn, bus := r, ph := .idle, pkt := [], wire := [], rsp := some .busFailure, busErr := true } ∧
      t.trace = s.trace ++ cmdEvents s.cfg (s.cfg.opc.setNormInv ||| BitVec.ofNat 8 b.toNat))

/-- R166. -/
def Obligations.PwroffSendsDisplayOff : Prop :=
  (∀ (s : State) (r : List Reply),
    (s.bus = .done :: r → ∃ t, exec .pwroff s = .next t ∧
      t = { s with
        temp0 := t.temp0, temp1 := t.temp1, csel := t.csel, dc := t.dc, clkCfg := t.clkCfg, trace := t.trace,
        drawn := t.drawn, bus := r, ph := .idle, pkt := [], wire := [], rsp := some .ok, life := .sleep } ∧
      t.trace = s.trace ++ cmdEvents s.cfg (s.cfg.opc.setDisp ||| 0)) ∧
    (s.bus = .fail :: r → ∃ t, exec .pwroff s = .next t ∧
      t = { s with
        temp0 := t.temp0, temp1 := t.temp1, csel := t.csel, dc := t.dc, clkCfg := t.clkCfg, trace := t.trace,
        drawn := t.drawn, bus := r, ph := .idle, pkt := [], wire := [], rsp := some .busFailure, busErr := true } ∧
      t.trace = s.trace ++ cmdEvents s.cfg (s.cfg.opc.setDisp ||| 0))) ∧
  (∀ (i : Instr) (s t : State), isDrawing i = true ∨ i = .showFrame → exec i { s with life := .on } = .next t →
    exec i { s with life := .sleep } = .next { t with life := .sleep })

/-- R91: SET_DISP, SET_MEM_ADDR, SET_START_LINE, SET_SEG_REMAP, SET_MUX_RATIO, SET_COM_OUT_DIR, SET_DISP_OFFSET,
SET_COM_PIN_CFG, SET_CLK_DIV, SET_PRECHARGE, SET_VCOM_DESEL, SET_CONTRAST, SET_ENTIRE_ON, SET_NORM_INV,
SET_CHARGE_PUMP, SET_COL_ADDR, SET_PAGE_ADDR. That such a command runs by itself, and its response OK and end in IDLE
then, are the model's choice (log 13). -/
def Obligations.CommandsSendTheirTableBytes : Prop :=
  ∀ (s : State) (i : Instr) (bs : List Byte) (r : List Reply), CommandRow s.cfg.opc i bs →
    s.bus = List.replicate bs.length .done ++ r → ∃ t, exec i s = .next t ∧
    t.trace = s.trace ++ bs.flatMap (cmdEvents s.cfg) ∧ t.bus = r ∧
    t.drawn = s.drawn ++ List.replicate bs.length .done ∧ t.fb = s.fb ∧ t.life = s.life ∧ t.busErr = s.busErr ∧
    t.rsp = some .ok ∧ t.ph = .idle

/-- R24, R131, R133. -/
def Obligations.RegCommandWritesTemp : Prop :=
  ∀ (s : State) (i : Instr) (bs : List Byte) (r : List Reply), CommandRow s.cfg.opc i bs →
    s.bus = List.replicate bs.length .done ++ r → ∃ t, exec i s = .next t ∧
    (s.cfg.transport = .reg → t.temp0 = s.cfg.ctrlCmd ∧ bs.getLast? = some t.temp1 ∧ t.csel = s.csel ∧
      t.dc = s.dc ∧ t.clkCfg = s.clkCfg) ∧
    (s.cfg.transport = .cs → t.temp0 = s.temp0 ∧ t.temp1 = s.temp1 ∧ t.dc = 0 ∧ t.csel = .deasserted ∧
      t.clkCfg = { hz := 10000000, idleLow := true, firstEdge := true })

/-- R54: no framebuffer access but SHOW's reads; R167: no additional state. -/
def Obligations.SerializerFrame : Prop :=
  ∀ (i : Instr) (s t : State), (i = .showFrame ∨ (∃ v, i = .contrast v) ∨ (∃ b, i = .invert b) ∨ i = .pwroff ∨
      i.isHost = false) → exec i s = .next t →
    t = { s with
      temp0 := t.temp0, temp1 := t.temp1, csel := t.csel, dc := t.dc, clkCfg := t.clkCfg, trace := t.trace,
      drawn := t.drawn, bus := t.bus, wait := t.wait, ph := t.ph, pkt := t.pkt, wire := t.wire, rsp := t.rsp,
      busErr := t.busErr, life := t.life } ∧
    (i ≠ .pwroff → t.life = s.life) ∧ ∀ k, t.fbRead k = s.fbRead k

/-- R161: INIT always clears FB; it is the only serializer operation that writes the framebuffer. -/
def Obligations.InitFrame : Prop :=
  ∀ s t : State, exec .init s = .next t →
    t = { s with
      fb := t.fb, life := t.life, temp0 := t.temp0, temp1 := t.temp1, csel := t.csel, dc := t.dc,
      clkCfg := t.clkCfg, trace := t.trace, drawn := t.drawn, bus := t.bus, wait := t.wait, ph := t.ph,
      pkt := t.pkt, wire := t.wire, rsp := t.rsp, busErr := t.busErr } ∧
    (t.fb = s.fb ∨ ∀ k, k < s.cfg.len → t.fbRead k = 0x00)

/-- R137, R222: no later transaction, no rollback, no retry. The response of a controller command that runs by itself is
the model's choice (log 13). -/
def Obligations.FailStopsTheOperationThere : Prop :=
  ∀ (i : Instr) (s : State) (k : Nat) (r : List Reply), k < (txnsOf s.cfg s.fbBytes i).length →
    s.bus = List.replicate k .done ++ .fail :: r → ∃ t, exec i s = .next t ∧
    t.trace = s.trace ++ ((txnsOf s.cfg s.fbBytes i).take (k + 1)).flatten ∧
    t.drawn = s.drawn ++ (List.replicate k .done ++ [.fail]) ∧ t.bus = r ∧ t.busErr = true ∧ t.life = s.life ∧
    t.ph = .idle ∧ t.pkt = [] ∧ t.rsp = some .busFailure ∧ t.wait = s.wait ∧ (i ≠ .init → t.fb = s.fb)

/-- R138; V9 (h). That the wait is a next state in EXEC with the transaction in `wait` is the model's choice (log 11). -/
def Obligations.UnansweredTransactionHangsTheOperation : Prop :=
  ∀ (i : Instr) (s : State) (k : Nat) (g : List Event) (q r : List Reply), s.cfg.busTimeout = none →
    (txnsOf s.cfg s.fbBytes i)[k]? = some g → NeverAnswered q r → s.bus = List.replicate k .done ++ q →
    ∃ t, exec i s = .next t ∧
    t.trace = s.trace ++ ((txnsOf s.cfg s.fbBytes i).take k).flatten ++ unanswered s.cfg g ∧
    t.drawn = s.drawn ++ List.replicate k .done ∧ t.bus = r ∧
    t.ph = .exec ∧ t.pkt = s.pkt ∧ t.wait.isSome = true ∧ t.rsp = s.rsp ∧ t.busErr = s.busErr ∧ t.life = s.life

/-- R138: only reset ends the wait; R264. The stop `busHung` with a quiet host is the model's choice (log 11), and so are the
dropped byte and the pause (log 9), the free byte of a read (log 6) and the replies reset keeps (log 8). -/
def Obligations.HungPsdcWaitsUntilReset : Prop :=
  ∀ s : State, s.cfg.legal = true → s.ph = .exec → s.wait.isSome = true →
    (s.host = [] → step s = .fault .busHung) ∧
    (∀ b rest, s.host = .send b :: rest → step s = .next { s with host := rest, rsp := none, rdata := none }) ∧
    (∀ rest, s.host = .pause :: rest → step s = .next { s with host := rest, rsp := none, rdata := none }) ∧
    (∀ i rest, s.host = .read i :: rest → step s = .next { s with
      host := rest, rsp := none, rdata := some (Config.portByte s.draws), draws := s.draws + 1 }) ∧
    (∀ rest, s.host = .reset :: rest → ∃ t, step s = .next t ∧ t.ph = .idle ∧ t.wait = none ∧ t.bus = s.bus)

/-- R138: an implementation that adds a timeout reports the expiry as Fail; PSDC's own BUS_TIMEOUT is none. That Fail stands
among the answers drawn is the model's reading (log 21), the response of a lone controller command is log 13. -/
def Obligations.TimeoutReportsFail : Prop :=
  ∀ (i : Instr) (s : State) (us k : Nat) (q r : List Reply), s.cfg.busTimeout = some us →
    k < (txnsOf s.cfg s.fbBytes i).length → NeverAnswered q r → s.bus = List.replicate k .done ++ q →
    ∃ t, exec i s = .next t ∧
    t.trace = s.trace ++ ((txnsOf s.cfg s.fbBytes i).take (k + 1)).flatten ∧
    t.drawn = s.drawn ++ (List.replicate k .done ++ [.fail]) ∧ t.bus = r ∧ t.busErr = true ∧ t.life = s.life ∧
    t.ph = .idle ∧ t.pkt = [] ∧ t.rsp = some .busFailure ∧ t.wait = s.wait ∧ (i ≠ .init → t.fb = s.fb)

/-- R58 and the last sentence of R146; the receiver is the spec's general knowledge (log 22). -/
def Obligations.ShowFillsTheControllerWindow : Prop :=
  ∀ (s : State) (rx : Rx) (r : List Reply), s.cfg.legal = true → s.cfg.opc = Opc.std →
    rx.mode = s.cfg.opc.modeHorizontal → rx.pending = [] → rx.held = false →
    s.bus = List.replicate 7 .done ++ r →
    ∃ t es, exec .showFrame s = .next t ∧ t.rsp = some .ok ∧ t.trace = s.trace ++ es ∧
    (∀ p x, p < s.cfg.pages → x < s.cfg.w →
      Memory.read (Rx.run s.cfg es rx).ram (rxCell p (s.cfg.colFirst + x)) = some (s.fbRead (p * s.cfg.w + x))) ∧
    ∀ x y : Nat, x < s.cfg.w → y < s.cfg.h →
      (Rx.run s.cfg es rx).pixel (s.cfg.colFirst + x) y = some (s.px x y)

/-- R167: after an INIT contrast is FF and the display is not inverted; the receiver is log 22. -/
def Obligations.InitConfiguresTheController : Prop :=
  ∀ (s : State) (rx : Rx) (r : List Reply), s.cfg.legal = true → s.cfg.opc = Opc.std → rx.pending = [] →
    rx.held = false → s.bus = List.replicate 32 .done ++ r →
    ∃ t es, exec .init s = .next t ∧ t.rsp = some .ok ∧ t.trace = s.trace ++ es ∧
    (Rx.run s.cfg es rx).on = 1 ∧ (Rx.run s.cfg es rx).mode = s.cfg.opc.modeHorizontal ∧
    (Rx.run s.cfg es rx).inverted = 0 ∧ (Rx.run s.cfg es rx).contrast = 0xFF ∧
    (Rx.run s.cfg es rx).muxRatio.toNat = s.cfg.h - 1 ∧ (Rx.run s.cfg es rx).remap = 1 ∧
    (Rx.run s.cfg es rx).comDir = 1 ∧
    ∀ p x, p < s.cfg.pages → x < s.cfg.w →
      Memory.read (Rx.run s.cfg es rx).ram (rxCell p (s.cfg.colFirst + x)) = some 0x00

/-- R137, U6: any prefix; the receiver is log 22. -/
def Obligations.FailedShowLeavesEachCellOldOrNew : Prop :=
  ∀ (s : State) (rx : Rx) (n : Nat) (r : List Reply), s.cfg.legal = true → s.cfg.opc = Opc.std →
    rx.mode = s.cfg.opc.modeHorizontal → rx.pending = [] → rx.held = false →
    s.bus = List.replicate 6 .done ++ .fail :: r →
    ∃ t es, exec .showFrame s = .next t ∧ t.rsp = some .busFailure ∧ t.trace = s.trace ++ es ∧
    ∀ p x, p < s.cfg.pages → x < s.cfg.w →
      Memory.read (Rx.runAnswered s.cfg es (List.replicate 6 .done ++ [.fail]) n rx).ram
          (rxCell p (s.cfg.colFirst + x)) = some (s.fbRead (p * s.cfg.w + x)) ∨
      Memory.read (Rx.runAnswered s.cfg es (List.replicate 6 .done ++ [.fail]) n rx).ram
          (rxCell p (s.cfg.colFirst + x)) = Memory.read rx.ram (rxCell p (s.cfg.colFirst + x))

/-- R146: the pulse returns the receiver to its power-on defaults (log 22). -/
def Obligations.PwronReturnsTheControllerToPowerOn : Prop :=
  ∀ (s : State) (rx : Rx), s.cfg.transport = .cs → ∃ t es, exec .pwron s = .next t ∧ t.trace = s.trace ++ es ∧
    Rx.run s.cfg es rx = { Config.rxPowerOn with held := false }
end

