-- ==== Sys2Proof/Laws/State.lean ====
section
/-! SUPPORT. One lemma per field of State per update: what the update leaves in that field. -/
namespace Sys2Proof.Machine

/-! `fbWrite` -/
@[simp] theorem State.fbWrite_cfg (s : State) (i : Nat) (v : Byte) : (s.fbWrite i v).cfg = s.cfg := rfl
@[simp] theorem State.fbWrite_fb (s : State) (i : Nat) (v : Byte) : (s.fbWrite i v).fb = Memory.write s.fb i v := rfl
@[simp] theorem State.fbWrite_fbDraw (s : State) (i : Nat) (v : Byte) : (s.fbWrite i v).fbDraw = s.fbDraw := rfl
@[simp] theorem State.fbWrite_temp0 (s : State) (i : Nat) (v : Byte) : (s.fbWrite i v).temp0 = s.temp0 := rfl
@[simp] theorem State.fbWrite_temp1 (s : State) (i : Nat) (v : Byte) : (s.fbWrite i v).temp1 = s.temp1 := rfl
@[simp] theorem State.fbWrite_ph (s : State) (i : Nat) (v : Byte) : (s.fbWrite i v).ph = s.ph := rfl
@[simp] theorem State.fbWrite_pkt (s : State) (i : Nat) (v : Byte) : (s.fbWrite i v).pkt = s.pkt := rfl
@[simp] theorem State.fbWrite_pen (s : State) (i : Nat) (v : Byte) : (s.fbWrite i v).pen = s.pen := rfl
@[simp] theorem State.fbWrite_busErr (s : State) (i : Nat) (v : Byte) : (s.fbWrite i v).busErr = s.busErr := rfl
@[simp] theorem State.fbWrite_life (s : State) (i : Nat) (v : Byte) : (s.fbWrite i v).life = s.life := rfl
@[simp] theorem State.fbWrite_csel (s : State) (i : Nat) (v : Byte) : (s.fbWrite i v).csel = s.csel := rfl
@[simp] theorem State.fbWrite_dc (s : State) (i : Nat) (v : Byte) : (s.fbWrite i v).dc = s.dc := rfl
@[simp] theorem State.fbWrite_res (s : State) (i : Nat) (v : Byte) : (s.fbWrite i v).res = s.res := rfl
@[simp] theorem State.fbWrite_clkCfg (s : State) (i : Nat) (v : Byte) : (s.fbWrite i v).clkCfg = s.clkCfg := rfl
@[simp] theorem State.fbWrite_trace (s : State) (i : Nat) (v : Byte) : (s.fbWrite i v).trace = s.trace := rfl
@[simp] theorem State.fbWrite_drawn (s : State) (i : Nat) (v : Byte) : (s.fbWrite i v).drawn = s.drawn := rfl
@[simp] theorem State.fbWrite_rsp (s : State) (i : Nat) (v : Byte) : (s.fbWrite i v).rsp = s.rsp := rfl
@[simp] theorem State.fbWrite_rdata (s : State) (i : Nat) (v : Byte) : (s.fbWrite i v).rdata = s.rdata := rfl
@[simp] theorem State.fbWrite_host (s : State) (i : Nat) (v : Byte) : (s.fbWrite i v).host = s.host := rfl
@[simp] theorem State.fbWrite_bus (s : State) (i : Nat) (v : Byte) : (s.fbWrite i v).bus = s.bus := rfl
@[simp] theorem State.fbWrite_wait (s : State) (i : Nat) (v : Byte) : (s.fbWrite i v).wait = s.wait := rfl
@[simp] theorem State.fbWrite_wire (s : State) (i : Nat) (v : Byte) : (s.fbWrite i v).wire = s.wire := rfl
@[simp] theorem State.fbWrite_draws (s : State) (i : Nat) (v : Byte) : (s.fbWrite i v).draws = s.draws := rfl

/-! `fbSetAll` -/
@[simp] theorem State.fbSetAll_cfg (s : State) (f : Nat → Byte) : (s.fbSetAll f).cfg = s.cfg := rfl
@[simp] theorem State.fbSetAll_fb (s : State) (f : Nat → Byte) : (s.fbSetAll f).fb = Memory.ofFun s.cfg.len f := rfl
@[simp] theorem State.fbSetAll_fbDraw (s : State) (f : Nat → Byte) : (s.fbSetAll f).fbDraw = s.fbDraw := rfl
@[simp] theorem State.fbSetAll_temp0 (s : State) (f : Nat → Byte) : (s.fbSetAll f).temp0 = s.temp0 := rfl
@[simp] theorem State.fbSetAll_temp1 (s : State) (f : Nat → Byte) : (s.fbSetAll f).temp1 = s.temp1 := rfl
@[simp] theorem State.fbSetAll_ph (s : State) (f : Nat → Byte) : (s.fbSetAll f).ph = s.ph := rfl
@[simp] theorem State.fbSetAll_pkt (s : State) (f : Nat → Byte) : (s.fbSetAll f).pkt = s.pkt := rfl
@[simp] theorem State.fbSetAll_pen (s : State) (f : Nat → Byte) : (s.fbSetAll f).pen = s.pen := rfl
@[simp] theorem State.fbSetAll_busErr (s : State) (f : Nat → Byte) : (s.fbSetAll f).busErr = s.busErr := rfl
@[simp] theorem State.fbSetAll_life (s : State) (f : Nat → Byte) : (s.fbSetAll f).life = s.life := rfl
@[simp] theorem State.fbSetAll_csel (s : State) (f : Nat → Byte) : (s.fbSetAll f).csel = s.csel := rfl
@[simp] theorem State.fbSetAll_dc (s : State) (f : Nat → Byte) : (s.fbSetAll f).dc = s.dc := rfl
@[simp] theorem State.fbSetAll_res (s : State) (f : Nat → Byte) : (s.fbSetAll f).res = s.res := rfl
@[simp] theorem State.fbSetAll_clkCfg (s : State) (f : Nat → Byte) : (s.fbSetAll f).clkCfg = s.clkCfg := rfl
@[simp] theorem State.fbSetAll_trace (s : State) (f : Nat → Byte) : (s.fbSetAll f).trace = s.trace := rfl
@[simp] theorem State.fbSetAll_drawn (s : State) (f : Nat → Byte) : (s.fbSetAll f).drawn = s.drawn := rfl
@[simp] theorem State.fbSetAll_rsp (s : State) (f : Nat → Byte) : (s.fbSetAll f).rsp = s.rsp := rfl
@[simp] theorem State.fbSetAll_rdata (s : State) (f : Nat → Byte) : (s.fbSetAll f).rdata = s.rdata := rfl
@[simp] theorem State.fbSetAll_host (s : State) (f : Nat → Byte) : (s.fbSetAll f).host = s.host := rfl
@[simp] theorem State.fbSetAll_bus (s : State) (f : Nat → Byte) : (s.fbSetAll f).bus = s.bus := rfl
@[simp] theorem State.fbSetAll_wait (s : State) (f : Nat → Byte) : (s.fbSetAll f).wait = s.wait := rfl
@[simp] theorem State.fbSetAll_wire (s : State) (f : Nat → Byte) : (s.fbSetAll f).wire = s.wire := rfl
@[simp] theorem State.fbSetAll_draws (s : State) (f : Nat → Byte) : (s.fbSetAll f).draws = s.draws := rfl

/-! `emit` -/
@[simp] theorem State.emit_cfg (s : State) (e : Event) : (s.emit e).cfg = s.cfg := rfl
@[simp] theorem State.emit_fb (s : State) (e : Event) : (s.emit e).fb = s.fb := rfl
@[simp] theorem State.emit_fbDraw (s : State) (e : Event) : (s.emit e).fbDraw = s.fbDraw := rfl
@[simp] theorem State.emit_temp0 (s : State) (e : Event) : (s.emit e).temp0 = s.temp0 := rfl
@[simp] theorem State.emit_temp1 (s : State) (e : Event) : (s.emit e).temp1 = s.temp1 := rfl
@[simp] theorem State.emit_ph (s : State) (e : Event) : (s.emit e).ph = s.ph := rfl
@[simp] theorem State.emit_pkt (s : State) (e : Event) : (s.emit e).pkt = s.pkt := rfl
@[simp] theorem State.emit_pen (s : State) (e : Event) : (s.emit e).pen = s.pen := rfl
@[simp] theorem State.emit_busErr (s : State) (e : Event) : (s.emit e).busErr = s.busErr := rfl
@[simp] theorem State.emit_life (s : State) (e : Event) : (s.emit e).life = s.life := rfl
@[simp] theorem State.emit_csel (s : State) (e : Event) : (s.emit e).csel = s.csel := rfl
@[simp] theorem State.emit_dc (s : State) (e : Event) : (s.emit e).dc = s.dc := rfl
@[simp] theorem State.emit_res (s : State) (e : Event) : (s.emit e).res = s.res := rfl
@[simp] theorem State.emit_clkCfg (s : State) (e : Event) : (s.emit e).clkCfg = s.clkCfg := rfl
@[simp] theorem State.emit_trace (s : State) (e : Event) : (s.emit e).trace = s.trace ++ [e] := rfl
@[simp] theorem State.emit_drawn (s : State) (e : Event) : (s.emit e).drawn = s.drawn := rfl
@[simp] theorem State.emit_rsp (s : State) (e : Event) : (s.emit e).rsp = s.rsp := rfl
@[simp] theorem State.emit_rdata (s : State) (e : Event) : (s.emit e).rdata = s.rdata := rfl
@[simp] theorem State.emit_host (s : State) (e : Event) : (s.emit e).host = s.host := rfl
@[simp] theorem State.emit_bus (s : State) (e : Event) : (s.emit e).bus = s.bus := rfl
@[simp] theorem State.emit_wait (s : State) (e : Event) : (s.emit e).wait = s.wait := rfl
@[simp] theorem State.emit_wire (s : State) (e : Event) : (s.emit e).wire = s.wire := rfl
@[simp] theorem State.emit_draws (s : State) (e : Event) : (s.emit e).draws = s.draws := rfl

/-! `answered` -/
@[simp] theorem State.answered_cfg (s : State) (a : Answer) (r : List Reply) : (s.answered a r).cfg = s.cfg := rfl
@[simp] theorem State.answered_fb (s : State) (a : Answer) (r : List Reply) : (s.answered a r).fb = s.fb := rfl
@[simp] theorem State.answered_fbDraw (s : State) (a : Answer) (r : List Reply) : (s.answered a r).fbDraw = s.fbDraw := rfl
@[simp] theorem State.answered_temp0 (s : State) (a : Answer) (r : List Reply) : (s.answered a r).temp0 = s.temp0 := rfl
@[simp] theorem State.answered_temp1 (s : State) (a : Answer) (r : List Reply) : (s.answered a r).temp1 = s.temp1 := rfl
@[simp] theorem State.answered_ph (s : State) (a : Answer) (r : List Reply) : (s.answered a r).ph = s.ph := rfl
@[simp] theorem State.answered_pkt (s : State) (a : Answer) (r : List Reply) : (s.answered a r).pkt = s.pkt := rfl
@[simp] theorem State.answered_pen (s : State) (a : Answer) (r : List Reply) : (s.answered a r).pen = s.pen := rfl
@[simp] theorem State.answered_busErr (s : State) (a : Answer) (r : List Reply) : (s.answered a r).busErr = s.busErr := rfl
@[simp] theorem State.answered_life (s : State) (a : Answer) (r : List Reply) : (s.answered a r).life = s.life := rfl
@[simp] theorem State.answered_csel (s : State) (a : Answer) (r : List Reply) : (s.answered a r).csel = s.csel := rfl
@[simp] theorem State.answered_dc (s : State) (a : Answer) (r : List Reply) : (s.answered a r).dc = s.dc := rfl
@[simp] theorem State.answered_res (s : State) (a : Answer) (r : List Reply) : (s.answered a r).res = s.res := rfl
@[simp] theorem State.answered_clkCfg (s : State) (a : Answer) (r : List Reply) : (s.answered a r).clkCfg = s.clkCfg := rfl
@[simp] theorem State.answered_trace (s : State) (a : Answer) (r : List Reply) : (s.answered a r).trace = s.trace := rfl
@[simp] theorem State.answered_drawn (s : State) (a : Answer) (r : List Reply) : (s.answered a r).drawn = s.drawn ++ [a] := rfl
@[simp] theorem State.answered_rsp (s : State) (a : Answer) (r : List Reply) : (s.answered a r).rsp = s.rsp := rfl
@[simp] theorem State.answered_rdata (s : State) (a : Answer) (r : List Reply) : (s.answered a r).rdata = s.rdata := rfl
@[simp] theorem State.answered_host (s : State) (a : Answer) (r : List Reply) : (s.answered a r).host = s.host := rfl
@[simp] theorem State.answered_bus (s : State) (a : Answer) (r : List Reply) : (s.answered a r).bus = r := rfl
@[simp] theorem State.answered_wait (s : State) (a : Answer) (r : List Reply) : (s.answered a r).wait = s.wait := rfl
@[simp] theorem State.answered_wire (s : State) (a : Answer) (r : List Reply) : (s.answered a r).wire = s.wire := rfl
@[simp] theorem State.answered_draws (s : State) (a : Answer) (r : List Reply) : (s.answered a r).draws = s.draws := rfl

/-! `endWith` -/
@[simp] theorem State.endWith_cfg (s : State) (r : Rsp) : (s.endWith r).cfg = s.cfg := rfl
@[simp] theorem State.endWith_fb (s : State) (r : Rsp) : (s.endWith r).fb = s.fb := rfl
@[simp] theorem State.endWith_fbDraw (s : State) (r : Rsp) : (s.endWith r).fbDraw = s.fbDraw := rfl
@[simp] theorem State.endWith_temp0 (s : State) (r : Rsp) : (s.endWith r).temp0 = s.temp0 := rfl
@[simp] theorem State.endWith_temp1 (s : State) (r : Rsp) : (s.endWith r).temp1 = s.temp1 := rfl
@[simp] theorem State.endWith_ph (s : State) (r : Rsp) : (s.endWith r).ph = .idle := rfl
@[simp] theorem State.endWith_pkt (s : State) (r : Rsp) : (s.endWith r).pkt = [] := rfl
@[simp] theorem State.endWith_pen (s : State) (r : Rsp) : (s.endWith r).pen = s.pen := rfl
@[simp] theorem State.endWith_busErr (s : State) (r : Rsp) : (s.endWith r).busErr = s.busErr := rfl
@[simp] theorem State.endWith_life (s : State) (r : Rsp) : (s.endWith r).life = s.life := rfl
@[simp] theorem State.endWith_csel (s : State) (r : Rsp) : (s.endWith r).csel = s.csel := rfl
@[simp] theorem State.endWith_dc (s : State) (r : Rsp) : (s.endWith r).dc = s.dc := rfl
@[simp] theorem State.endWith_res (s : State) (r : Rsp) : (s.endWith r).res = s.res := rfl
@[simp] theorem State.endWith_clkCfg (s : State) (r : Rsp) : (s.endWith r).clkCfg = s.clkCfg := rfl
@[simp] theorem State.endWith_trace (s : State) (r : Rsp) : (s.endWith r).trace = s.trace := rfl
@[simp] theorem State.endWith_drawn (s : State) (r : Rsp) : (s.endWith r).drawn = s.drawn := rfl
@[simp] theorem State.endWith_rsp (s : State) (r : Rsp) : (s.endWith r).rsp = some r := rfl
@[simp] theorem State.endWith_rdata (s : State) (r : Rsp) : (s.endWith r).rdata = s.rdata := rfl
@[simp] theorem State.endWith_host (s : State) (r : Rsp) : (s.endWith r).host = s.host := rfl
@[simp] theorem State.endWith_bus (s : State) (r : Rsp) : (s.endWith r).bus = s.bus := rfl
@[simp] theorem State.endWith_wait (s : State) (r : Rsp) : (s.endWith r).wait = s.wait := rfl
@[simp] theorem State.endWith_wire (s : State) (r : Rsp) : (s.endWith r).wire = [] := rfl
@[simp] theorem State.endWith_draws (s : State) (r : Rsp) : (s.endWith r).draws = s.draws := rfl

/-! `complete` -/
@[simp] theorem State.complete_cfg (s : State) : (s.complete).cfg = s.cfg := rfl
@[simp] theorem State.complete_fb (s : State) : (s.complete).fb = s.fb := rfl
@[simp] theorem State.complete_fbDraw (s : State) : (s.complete).fbDraw = s.fbDraw := rfl
@[simp] theorem State.complete_temp0 (s : State) : (s.complete).temp0 = s.temp0 := rfl
@[simp] theorem State.complete_temp1 (s : State) : (s.complete).temp1 = s.temp1 := rfl
@[simp] theorem State.complete_ph (s : State) : (s.complete).ph = .idle := rfl
@[simp] theorem State.complete_pkt (s : State) : (s.complete).pkt = [] := rfl
@[simp] theorem State.complete_pen (s : State) : (s.complete).pen = s.pen := rfl
@[simp] theorem State.complete_busErr (s : State) : (s.complete).busErr = s.busErr := rfl
@[simp] theorem State.complete_life (s : State) : (s.complete).life = s.life := rfl
@[simp] theorem State.complete_csel (s : State) : (s.complete).csel = s.csel := rfl
@[simp] theorem State.complete_dc (s : State) : (s.complete).dc = s.dc := rfl
@[simp] theorem State.complete_res (s : State) : (s.complete).res = s.res := rfl
@[simp] theorem State.complete_clkCfg (s : State) : (s.complete).clkCfg = s.clkCfg := rfl
@[simp] theorem State.complete_trace (s : State) : (s.complete).trace = s.trace := rfl
@[simp] theorem State.complete_drawn (s : State) : (s.complete).drawn = s.drawn := rfl
@[simp] theorem State.complete_rsp (s : State) : (s.complete).rsp = some .ok := rfl
@[simp] theorem State.complete_rdata (s : State) : (s.complete).rdata = s.rdata := rfl
@[simp] theorem State.complete_host (s : State) : (s.complete).host = s.host := rfl
@[simp] theorem State.complete_bus (s : State) : (s.complete).bus = s.bus := rfl
@[simp] theorem State.complete_wait (s : State) : (s.complete).wait = s.wait := rfl
@[simp] theorem State.complete_wire (s : State) : (s.complete).wire = [] := rfl
@[simp] theorem State.complete_draws (s : State) : (s.complete).draws = s.draws := rfl

/-! `raiseBusFailure` -/
@[simp] theorem State.raiseBusFailure_cfg (s : State) : (s.raiseBusFailure).cfg = s.cfg := rfl
@[simp] theorem State.raiseBusFailure_fb (s : State) : (s.raiseBusFailure).fb = s.fb := rfl
@[simp] theorem State.raiseBusFailure_fbDraw (s : State) : (s.raiseBusFailure).fbDraw = s.fbDraw := rfl
@[simp] theorem State.raiseBusFailure_temp0 (s : State) : (s.raiseBusFailure).temp0 = s.temp0 := rfl
@[simp] theorem State.raiseBusFailure_temp1 (s : State) : (s.raiseBusFailure).temp1 = s.temp1 := rfl
@[simp] theorem State.raiseBusFailure_ph (s : State) : (s.raiseBusFailure).ph = .idle := rfl
@[simp] theorem State.raiseBusFailure_pkt (s : State) : (s.raiseBusFailure).pkt = [] := rfl
@[simp] theorem State.raiseBusFailure_pen (s : State) : (s.raiseBusFailure).pen = s.pen := rfl
@[simp] theorem State.raiseBusFailure_busErr (s : State) : (s.raiseBusFailure).busErr = true := rfl
@[simp] theorem State.raiseBusFailure_life (s : State) : (s.raiseBusFailure).life = s.life := rfl
@[simp] theorem State.raiseBusFailure_csel (s : State) : (s.raiseBusFailure).csel = s.csel := rfl
@[simp] theorem State.raiseBusFailure_dc (s : State) : (s.raiseBusFailure).dc = s.dc := rfl
@[simp] theorem State.raiseBusFailure_res (s : State) : (s.raiseBusFailure).res = s.res := rfl
@[simp] theorem State.raiseBusFailure_clkCfg (s : State) : (s.raiseBusFailure).clkCfg = s.clkCfg := rfl
@[simp] theorem State.raiseBusFailure_trace (s : State) : (s.raiseBusFailure).trace = s.trace := rfl
@[simp] theorem State.raiseBusFailure_drawn (s : State) : (s.raiseBusFailure).drawn = s.drawn := rfl
@[simp] theorem State.raiseBusFailure_rsp (s : State) : (s.raiseBusFailure).rsp = some .busFailure := rfl
@[simp] theorem State.raiseBusFailure_rdata (s : State) : (s.raiseBusFailure).rdata = s.rdata := rfl
@[simp] theorem State.raiseBusFailure_host (s : State) : (s.raiseBusFailure).host = s.host := rfl
@[simp] theorem State.raiseBusFailure_bus (s : State) : (s.raiseBusFailure).bus = s.bus := rfl
@[simp] theorem State.raiseBusFailure_wait (s : State) : (s.raiseBusFailure).wait = s.wait := rfl
@[simp] theorem State.raiseBusFailure_wire (s : State) : (s.raiseBusFailure).wire = [] := rfl
@[simp] theorem State.raiseBusFailure_draws (s : State) : (s.raiseBusFailure).draws = s.draws := rfl

/-! `hang` -/
@[simp] theorem State.hang_cfg (s : State) : (s.hang).cfg = s.cfg := rfl
@[simp] theorem State.hang_fb (s : State) : (s.hang).fb = s.fb := rfl
@[simp] theorem State.hang_fbDraw (s : State) : (s.hang).fbDraw = s.fbDraw := rfl
@[simp] theorem State.hang_temp0 (s : State) : (s.hang).temp0 = s.temp0 := rfl
@[simp] theorem State.hang_temp1 (s : State) : (s.hang).temp1 = s.temp1 := rfl
@[simp] theorem State.hang_ph (s : State) : (s.hang).ph = .exec := rfl
@[simp] theorem State.hang_pkt (s : State) : (s.hang).pkt = s.pkt := rfl
@[simp] theorem State.hang_pen (s : State) : (s.hang).pen = s.pen := rfl
@[simp] theorem State.hang_busErr (s : State) : (s.hang).busErr = s.busErr := rfl
@[simp] theorem State.hang_life (s : State) : (s.hang).life = s.life := rfl
@[simp] theorem State.hang_csel (s : State) : (s.hang).csel = s.csel := rfl
@[simp] theorem State.hang_dc (s : State) : (s.hang).dc = s.dc := rfl
@[simp] theorem State.hang_res (s : State) : (s.hang).res = s.res := rfl
@[simp] theorem State.hang_clkCfg (s : State) : (s.hang).clkCfg = s.clkCfg := rfl
@[simp] theorem State.hang_trace (s : State) : (s.hang).trace = s.trace := rfl
@[simp] theorem State.hang_drawn (s : State) : (s.hang).drawn = s.drawn := rfl
@[simp] theorem State.hang_rsp (s : State) : (s.hang).rsp = s.rsp := rfl
@[simp] theorem State.hang_rdata (s : State) : (s.hang).rdata = s.rdata := rfl
@[simp] theorem State.hang_host (s : State) : (s.hang).host = s.host := rfl
@[simp] theorem State.hang_bus (s : State) : (s.hang).bus = s.bus := rfl
@[simp] theorem State.hang_wait (s : State) : (s.hang).wait = s.wait := rfl
@[simp] theorem State.hang_wire (s : State) : (s.hang).wire = s.wire := rfl
@[simp] theorem State.hang_draws (s : State) : (s.hang).draws = s.draws := rfl

/-! `illegal` -/
@[simp] theorem State.illegal_cfg (s : State) : (s.illegal).cfg = s.cfg := rfl
@[simp] theorem State.illegal_fb (s : State) : (s.illegal).fb = s.fb := rfl
@[simp] theorem State.illegal_fbDraw (s : State) : (s.illegal).fbDraw = s.fbDraw := rfl
@[simp] theorem State.illegal_temp0 (s : State) : (s.illegal).temp0 = s.temp0 := rfl
@[simp] theorem State.illegal_temp1 (s : State) : (s.illegal).temp1 = s.temp1 := rfl
@[simp] theorem State.illegal_ph (s : State) : (s.illegal).ph = .fault := rfl
@[simp] theorem State.illegal_pkt (s : State) : (s.illegal).pkt = s.pkt := rfl
@[simp] theorem State.illegal_pen (s : State) : (s.illegal).pen = s.pen := rfl
@[simp] theorem State.illegal_busErr (s : State) : (s.illegal).busErr = s.busErr := rfl
@[simp] theorem State.illegal_life (s : State) : (s.illegal).life = s.life := rfl
@[simp] theorem State.illegal_csel (s : State) : (s.illegal).csel = s.csel := rfl
@[simp] theorem State.illegal_dc (s : State) : (s.illegal).dc = s.dc := rfl
@[simp] theorem State.illegal_res (s : State) : (s.illegal).res = s.res := rfl
@[simp] theorem State.illegal_clkCfg (s : State) : (s.illegal).clkCfg = s.clkCfg := rfl
@[simp] theorem State.illegal_trace (s : State) : (s.illegal).trace = s.trace := rfl
@[simp] theorem State.illegal_drawn (s : State) : (s.illegal).drawn = s.drawn := rfl
@[simp] theorem State.illegal_rsp (s : State) : (s.illegal).rsp = some .illegalCommand := rfl
@[simp] theorem State.illegal_rdata (s : State) : (s.illegal).rdata = s.rdata := rfl
@[simp] theorem State.illegal_host (s : State) : (s.illegal).host = s.host := rfl
@[simp] theorem State.illegal_bus (s : State) : (s.illegal).bus = s.bus := rfl
@[simp] theorem State.illegal_wait (s : State) : (s.illegal).wait = s.wait := rfl
@[simp] theorem State.illegal_wire (s : State) : (s.illegal).wire = s.wire := rfl
@[simp] theorem State.illegal_draws (s : State) : (s.illegal).draws = s.draws := rfl

/-! `setClk` -/
@[simp] theorem State.setClk_cfg (s : State) (c : ClkCfg) : (s.setClk c).cfg = s.cfg := rfl
@[simp] theorem State.setClk_fb (s : State) (c : ClkCfg) : (s.setClk c).fb = s.fb := rfl
@[simp] theorem State.setClk_fbDraw (s : State) (c : ClkCfg) : (s.setClk c).fbDraw = s.fbDraw := rfl
@[simp] theorem State.setClk_temp0 (s : State) (c : ClkCfg) : (s.setClk c).temp0 = s.temp0 := rfl
@[simp] theorem State.setClk_temp1 (s : State) (c : ClkCfg) : (s.setClk c).temp1 = s.temp1 := rfl
@[simp] theorem State.setClk_ph (s : State) (c : ClkCfg) : (s.setClk c).ph = s.ph := rfl
@[simp] theorem State.setClk_pkt (s : State) (c : ClkCfg) : (s.setClk c).pkt = s.pkt := rfl
@[simp] theorem State.setClk_pen (s : State) (c : ClkCfg) : (s.setClk c).pen = s.pen := rfl
@[simp] theorem State.setClk_busErr (s : State) (c : ClkCfg) : (s.setClk c).busErr = s.busErr := rfl
@[simp] theorem State.setClk_life (s : State) (c : ClkCfg) : (s.setClk c).life = s.life := rfl
@[simp] theorem State.setClk_csel (s : State) (c : ClkCfg) : (s.setClk c).csel = s.csel := rfl
@[simp] theorem State.setClk_dc (s : State) (c : ClkCfg) : (s.setClk c).dc = s.dc := rfl
@[simp] theorem State.setClk_res (s : State) (c : ClkCfg) : (s.setClk c).res = s.res := rfl
@[simp] theorem State.setClk_clkCfg (s : State) (c : ClkCfg) : (s.setClk c).clkCfg = c := rfl
@[simp] theorem State.setClk_trace (s : State) (c : ClkCfg) : (s.setClk c).trace = s.trace ++ [.clkCfg c] := rfl
@[simp] theorem State.setClk_drawn (s : State) (c : ClkCfg) : (s.setClk c).drawn = s.drawn := rfl
@[simp] theorem State.setClk_rsp (s : State) (c : ClkCfg) : (s.setClk c).rsp = s.rsp := rfl
@[simp] theorem State.setClk_rdata (s : State) (c : ClkCfg) : (s.setClk c).rdata = s.rdata := rfl
@[simp] theorem State.setClk_host (s : State) (c : ClkCfg) : (s.setClk c).host = s.host := rfl
@[simp] theorem State.setClk_bus (s : State) (c : ClkCfg) : (s.setClk c).bus = s.bus := rfl
@[simp] theorem State.setClk_wait (s : State) (c : ClkCfg) : (s.setClk c).wait = s.wait := rfl
@[simp] theorem State.setClk_wire (s : State) (c : ClkCfg) : (s.setClk c).wire = s.wire := rfl
@[simp] theorem State.setClk_draws (s : State) (c : ClkCfg) : (s.setClk c).draws = s.draws := rfl

/-! `setDc` -/
@[simp] theorem State.setDc_cfg (s : State) (v : Bit) : (s.setDc v).cfg = s.cfg := rfl
@[simp] theorem State.setDc_fb (s : State) (v : Bit) : (s.setDc v).fb = s.fb := rfl
@[simp] theorem State.setDc_fbDraw (s : State) (v : Bit) : (s.setDc v).fbDraw = s.fbDraw := rfl
@[simp] theorem State.setDc_temp0 (s : State) (v : Bit) : (s.setDc v).temp0 = s.temp0 := rfl
@[simp] theorem State.setDc_temp1 (s : State) (v : Bit) : (s.setDc v).temp1 = s.temp1 := rfl
@[simp] theorem State.setDc_ph (s : State) (v : Bit) : (s.setDc v).ph = s.ph := rfl
@[simp] theorem State.setDc_pkt (s : State) (v : Bit) : (s.setDc v).pkt = s.pkt := rfl
@[simp] theorem State.setDc_pen (s : State) (v : Bit) : (s.setDc v).pen = s.pen := rfl
@[simp] theorem State.setDc_busErr (s : State) (v : Bit) : (s.setDc v).busErr = s.busErr := rfl
@[simp] theorem State.setDc_life (s : State) (v : Bit) : (s.setDc v).life = s.life := rfl
@[simp] theorem State.setDc_csel (s : State) (v : Bit) : (s.setDc v).csel = s.csel := rfl
@[simp] theorem State.setDc_dc (s : State) (v : Bit) : (s.setDc v).dc = v := rfl
@[simp] theorem State.setDc_res (s : State) (v : Bit) : (s.setDc v).res = s.res := rfl
@[simp] theorem State.setDc_clkCfg (s : State) (v : Bit) : (s.setDc v).clkCfg = s.clkCfg := rfl
@[simp] theorem State.setDc_trace (s : State) (v : Bit) : (s.setDc v).trace = s.trace ++ [.sigDc v] := rfl
@[simp] theorem State.setDc_drawn (s : State) (v : Bit) : (s.setDc v).drawn = s.drawn := rfl
@[simp] theorem State.setDc_rsp (s : State) (v : Bit) : (s.setDc v).rsp = s.rsp := rfl
@[simp] theorem State.setDc_rdata (s : State) (v : Bit) : (s.setDc v).rdata = s.rdata := rfl
@[simp] theorem State.setDc_host (s : State) (v : Bit) : (s.setDc v).host = s.host := rfl
@[simp] theorem State.setDc_bus (s : State) (v : Bit) : (s.setDc v).bus = s.bus := rfl
@[simp] theorem State.setDc_wait (s : State) (v : Bit) : (s.setDc v).wait = s.wait := rfl
@[simp] theorem State.setDc_wire (s : State) (v : Bit) : (s.setDc v).wire = s.wire := rfl
@[simp] theorem State.setDc_draws (s : State) (v : Bit) : (s.setDc v).draws = s.draws := rfl

/-! `setCsel` -/
@[simp] theorem State.setCsel_cfg (s : State) (v : Select) : (s.setCsel v).cfg = s.cfg := rfl
@[simp] theorem State.setCsel_fb (s : State) (v : Select) : (s.setCsel v).fb = s.fb := rfl
@[simp] theorem State.setCsel_fbDraw (s : State) (v : Select) : (s.setCsel v).fbDraw = s.fbDraw := rfl
@[simp] theorem State.setCsel_temp0 (s : State) (v : Select) : (s.setCsel v).temp0 = s.temp0 := rfl
@[simp] theorem State.setCsel_temp1 (s : State) (v : Select) : (s.setCsel v).temp1 = s.temp1 := rfl
@[simp] theorem State.setCsel_ph (s : State) (v : Select) : (s.setCsel v).ph = s.ph := rfl
@[simp] theorem State.setCsel_pkt (s : State) (v : Select) : (s.setCsel v).pkt = s.pkt := rfl
@[simp] theorem State.setCsel_pen (s : State) (v : Select) : (s.setCsel v).pen = s.pen := rfl
@[simp] theorem State.setCsel_busErr (s : State) (v : Select) : (s.setCsel v).busErr = s.busErr := rfl
@[simp] theorem State.setCsel_life (s : State) (v : Select) : (s.setCsel v).life = s.life := rfl
@[simp] theorem State.setCsel_csel (s : State) (v : Select) : (s.setCsel v).csel = v := rfl
@[simp] theorem State.setCsel_dc (s : State) (v : Select) : (s.setCsel v).dc = s.dc := rfl
@[simp] theorem State.setCsel_res (s : State) (v : Select) : (s.setCsel v).res = s.res := rfl
@[simp] theorem State.setCsel_clkCfg (s : State) (v : Select) : (s.setCsel v).clkCfg = s.clkCfg := rfl
@[simp] theorem State.setCsel_trace (s : State) (v : Select) : (s.setCsel v).trace = s.trace ++ [.sigCsel v] := rfl
@[simp] theorem State.setCsel_drawn (s : State) (v : Select) : (s.setCsel v).drawn = s.drawn := rfl
@[simp] theorem State.setCsel_rsp (s : State) (v : Select) : (s.setCsel v).rsp = s.rsp := rfl
@[simp] theorem State.setCsel_rdata (s : State) (v : Select) : (s.setCsel v).rdata = s.rdata := rfl
@[simp] theorem State.setCsel_host (s : State) (v : Select) : (s.setCsel v).host = s.host := rfl
@[simp] theorem State.setCsel_bus (s : State) (v : Select) : (s.setCsel v).bus = s.bus := rfl
@[simp] theorem State.setCsel_wait (s : State) (v : Select) : (s.setCsel v).wait = s.wait := rfl
@[simp] theorem State.setCsel_wire (s : State) (v : Select) : (s.setCsel v).wire = s.wire := rfl
@[simp] theorem State.setCsel_draws (s : State) (v : Select) : (s.setCsel v).draws = s.draws := rfl

/-! `setRes` -/
@[simp] theorem State.setRes_cfg (s : State) (v : Bit) : (s.setRes v).cfg = s.cfg := rfl
@[simp] theorem State.setRes_fb (s : State) (v : Bit) : (s.setRes v).fb = s.fb := rfl
@[simp] theorem State.setRes_fbDraw (s : State) (v : Bit) : (s.setRes v).fbDraw = s.fbDraw := rfl
@[simp] theorem State.setRes_temp0 (s : State) (v : Bit) : (s.setRes v).temp0 = s.temp0 := rfl
@[simp] theorem State.setRes_temp1 (s : State) (v : Bit) : (s.setRes v).temp1 = s.temp1 := rfl
@[simp] theorem State.setRes_ph (s : State) (v : Bit) : (s.setRes v).ph = s.ph := rfl
@[simp] theorem State.setRes_pkt (s : State) (v : Bit) : (s.setRes v).pkt = s.pkt := rfl
@[simp] theorem State.setRes_pen (s : State) (v : Bit) : (s.setRes v).pen = s.pen := rfl
@[simp] theorem State.setRes_busErr (s : State) (v : Bit) : (s.setRes v).busErr = s.busErr := rfl
@[simp] theorem State.setRes_life (s : State) (v : Bit) : (s.setRes v).life = s.life := rfl
@[simp] theorem State.setRes_csel (s : State) (v : Bit) : (s.setRes v).csel = s.csel := rfl
@[simp] theorem State.setRes_dc (s : State) (v : Bit) : (s.setRes v).dc = s.dc := rfl
@[simp] theorem State.setRes_res (s : State) (v : Bit) : (s.setRes v).res = v := rfl
@[simp] theorem State.setRes_clkCfg (s : State) (v : Bit) : (s.setRes v).clkCfg = s.clkCfg := rfl
@[simp] theorem State.setRes_trace (s : State) (v : Bit) : (s.setRes v).trace = s.trace ++ [.sigRes v] := rfl
@[simp] theorem State.setRes_drawn (s : State) (v : Bit) : (s.setRes v).drawn = s.drawn := rfl
@[simp] theorem State.setRes_rsp (s : State) (v : Bit) : (s.setRes v).rsp = s.rsp := rfl
@[simp] theorem State.setRes_rdata (s : State) (v : Bit) : (s.setRes v).rdata = s.rdata := rfl
@[simp] theorem State.setRes_host (s : State) (v : Bit) : (s.setRes v).host = s.host := rfl
@[simp] theorem State.setRes_bus (s : State) (v : Bit) : (s.setRes v).bus = s.bus := rfl
@[simp] theorem State.setRes_wait (s : State) (v : Bit) : (s.setRes v).wait = s.wait := rfl
@[simp] theorem State.setRes_wire (s : State) (v : Bit) : (s.setRes v).wire = s.wire := rfl
@[simp] theorem State.setRes_draws (s : State) (v : Bit) : (s.setRes v).draws = s.draws := rfl

/-! `setTemp` -/
@[simp] theorem State.setTemp_cfg (s : State) (a b : Byte) : (s.setTemp a b).cfg = s.cfg := rfl
@[simp] theorem State.setTemp_fb (s : State) (a b : Byte) : (s.setTemp a b).fb = s.fb := rfl
@[simp] theorem State.setTemp_fbDraw (s : State) (a b : Byte) : (s.setTemp a b).fbDraw = s.fbDraw := rfl
@[simp] theorem State.setTemp_temp0 (s : State) (a b : Byte) : (s.setTemp a b).temp0 = a := rfl
@[simp] theorem State.setTemp_temp1 (s : State) (a b : Byte) : (s.setTemp a b).temp1 = b := rfl
@[simp] theorem State.setTemp_ph (s : State) (a b : Byte) : (s.setTemp a b).ph = s.ph := rfl
@[simp] theorem State.setTemp_pkt (s : State) (a b : Byte) : (s.setTemp a b).pkt = s.pkt := rfl
@[simp] theorem State.setTemp_pen (s : State) (a b : Byte) : (s.setTemp a b).pen = s.pen := rfl
@[simp] theorem State.setTemp_busErr (s : State) (a b : Byte) : (s.setTemp a b).busErr = s.busErr := rfl
@[simp] theorem State.setTemp_life (s : State) (a b : Byte) : (s.setTemp a b).life = s.life := rfl
@[simp] theorem State.setTemp_csel (s : State) (a b : Byte) : (s.setTemp a b).csel = s.csel := rfl
@[simp] theorem State.setTemp_dc (s : State) (a b : Byte) : (s.setTemp a b).dc = s.dc := rfl
@[simp] theorem State.setTemp_res (s : State) (a b : Byte) : (s.setTemp a b).res = s.res := rfl
@[simp] theorem State.setTemp_clkCfg (s : State) (a b : Byte) : (s.setTemp a b).clkCfg = s.clkCfg := rfl
@[simp] theorem State.setTemp_trace (s : State) (a b : Byte) : (s.setTemp a b).trace = s.trace := rfl
@[simp] theorem State.setTemp_drawn (s : State) (a b : Byte) : (s.setTemp a b).drawn = s.drawn := rfl
@[simp] theorem State.setTemp_rsp (s : State) (a b : Byte) : (s.setTemp a b).rsp = s.rsp := rfl
@[simp] theorem State.setTemp_rdata (s : State) (a b : Byte) : (s.setTemp a b).rdata = s.rdata := rfl
@[simp] theorem State.setTemp_host (s : State) (a b : Byte) : (s.setTemp a b).host = s.host := rfl
@[simp] theorem State.setTemp_bus (s : State) (a b : Byte) : (s.setTemp a b).bus = s.bus := rfl
@[simp] theorem State.setTemp_wait (s : State) (a b : Byte) : (s.setTemp a b).wait = s.wait := rfl
@[simp] theorem State.setTemp_wire (s : State) (a b : Byte) : (s.setTemp a b).wire = s.wire := rfl
@[simp] theorem State.setTemp_draws (s : State) (a b : Byte) : (s.setTemp a b).draws = s.draws := rfl

/-! `setPen` -/
@[simp] theorem State.setPen_cfg (s : State) (p : Option Int) : (s.setPen p).cfg = s.cfg := rfl
@[simp] theorem State.setPen_fb (s : State) (p : Option Int) : (s.setPen p).fb = s.fb := rfl
@[simp] theorem State.setPen_fbDraw (s : State) (p : Option Int) : (s.setPen p).fbDraw = s.fbDraw := rfl
@[simp] theorem State.setPen_temp0 (s : State) (p : Option Int) : (s.setPen p).temp0 = s.temp0 := rfl
@[simp] theorem State.setPen_temp1 (s : State) (p : Option Int) : (s.setPen p).temp1 = s.temp1 := rfl
@[simp] theorem State.setPen_ph (s : State) (p : Option Int) : (s.setPen p).ph = s.ph := rfl
@[simp] theorem State.setPen_pkt (s : State) (p : Option Int) : (s.setPen p).pkt = s.pkt := rfl
@[simp] theorem State.setPen_pen (s : State) (p : Option Int) : (s.setPen p).pen = p := rfl
@[simp] theorem State.setPen_busErr (s : State) (p : Option Int) : (s.setPen p).busErr = s.busErr := rfl
@[simp] theorem State.setPen_life (s : State) (p : Option Int) : (s.setPen p).life = s.life := rfl
@[simp] theorem State.setPen_csel (s : State) (p : Option Int) : (s.setPen p).csel = s.csel := rfl
@[simp] theorem State.setPen_dc (s : State) (p : Option Int) : (s.setPen p).dc = s.dc := rfl
@[simp] theorem State.setPen_res (s : State) (p : Option Int) : (s.setPen p).res = s.res := rfl
@[simp] theorem State.setPen_clkCfg (s : State) (p : Option Int) : (s.setPen p).clkCfg = s.clkCfg := rfl
@[simp] theorem State.setPen_trace (s : State) (p : Option Int) : (s.setPen p).trace = s.trace := rfl
@[simp] theorem State.setPen_drawn (s : State) (p : Option Int) : (s.setPen p).drawn = s.drawn := rfl
@[simp] theorem State.setPen_rsp (s : State) (p : Option Int) : (s.setPen p).rsp = s.rsp := rfl
@[simp] theorem State.setPen_rdata (s : State) (p : Option Int) : (s.setPen p).rdata = s.rdata := rfl
@[simp] theorem State.setPen_host (s : State) (p : Option Int) : (s.setPen p).host = s.host := rfl
@[simp] theorem State.setPen_bus (s : State) (p : Option Int) : (s.setPen p).bus = s.bus := rfl
@[simp] theorem State.setPen_wait (s : State) (p : Option Int) : (s.setPen p).wait = s.wait := rfl
@[simp] theorem State.setPen_wire (s : State) (p : Option Int) : (s.setPen p).wire = s.wire := rfl
@[simp] theorem State.setPen_draws (s : State) (p : Option Int) : (s.setPen p).draws = s.draws := rfl

/-! `tick` -/
@[simp] theorem State.tick_cfg (s : State) : (s.tick).cfg = s.cfg := rfl
@[simp] theorem State.tick_fb (s : State) : (s.tick).fb = s.fb := rfl
@[simp] theorem State.tick_fbDraw (s : State) : (s.tick).fbDraw = s.fbDraw := rfl
@[simp] theorem State.tick_temp0 (s : State) : (s.tick).temp0 = s.temp0 := rfl
@[simp] theorem State.tick_temp1 (s : State) : (s.tick).temp1 = s.temp1 := rfl
@[simp] theorem State.tick_ph (s : State) : (s.tick).ph = s.ph := rfl
@[simp] theorem State.tick_pkt (s : State) : (s.tick).pkt = s.pkt := rfl
@[simp] theorem State.tick_pen (s : State) : (s.tick).pen = s.pen := rfl
@[simp] theorem State.tick_busErr (s : State) : (s.tick).busErr = s.busErr := rfl
@[simp] theorem State.tick_life (s : State) : (s.tick).life = s.life := rfl
@[simp] theorem State.tick_csel (s : State) : (s.tick).csel = s.csel := rfl
@[simp] theorem State.tick_dc (s : State) : (s.tick).dc = s.dc := rfl
@[simp] theorem State.tick_res (s : State) : (s.tick).res = s.res := rfl
@[simp] theorem State.tick_clkCfg (s : State) : (s.tick).clkCfg = s.clkCfg := rfl
@[simp] theorem State.tick_trace (s : State) : (s.tick).trace = s.trace := rfl
@[simp] theorem State.tick_drawn (s : State) : (s.tick).drawn = s.drawn := rfl
@[simp] theorem State.tick_rsp (s : State) : (s.tick).rsp = none := rfl
@[simp] theorem State.tick_rdata (s : State) : (s.tick).rdata = none := rfl
@[simp] theorem State.tick_host (s : State) : (s.tick).host = s.host := rfl
@[simp] theorem State.tick_bus (s : State) : (s.tick).bus = s.bus := rfl
@[simp] theorem State.tick_wait (s : State) : (s.tick).wait = s.wait := rfl
@[simp] theorem State.tick_wire (s : State) : (s.tick).wire = s.wire := rfl
@[simp] theorem State.tick_draws (s : State) : (s.tick).draws = s.draws := rfl

/-! `withHost` -/
@[simp] theorem State.withHost_cfg (s : State) (r : List HostAct) : (s.withHost r).cfg = s.cfg := rfl
@[simp] theorem State.withHost_fb (s : State) (r : List HostAct) : (s.withHost r).fb = s.fb := rfl
@[simp] theorem State.withHost_fbDraw (s : State) (r : List HostAct) : (s.withHost r).fbDraw = s.fbDraw := rfl
@[simp] theorem State.withHost_temp0 (s : State) (r : List HostAct) : (s.withHost r).temp0 = s.temp0 := rfl
@[simp] theorem State.withHost_temp1 (s : State) (r : List HostAct) : (s.withHost r).temp1 = s.temp1 := rfl
@[simp] theorem State.withHost_ph (s : State) (r : List HostAct) : (s.withHost r).ph = s.ph := rfl
@[simp] theorem State.withHost_pkt (s : State) (r : List HostAct) : (s.withHost r).pkt = s.pkt := rfl
@[simp] theorem State.withHost_pen (s : State) (r : List HostAct) : (s.withHost r).pen = s.pen := rfl
@[simp] theorem State.withHost_busErr (s : State) (r : List HostAct) : (s.withHost r).busErr = s.busErr := rfl
@[simp] theorem State.withHost_life (s : State) (r : List HostAct) : (s.withHost r).life = s.life := rfl
@[simp] theorem State.withHost_csel (s : State) (r : List HostAct) : (s.withHost r).csel = s.csel := rfl
@[simp] theorem State.withHost_dc (s : State) (r : List HostAct) : (s.withHost r).dc = s.dc := rfl
@[simp] theorem State.withHost_res (s : State) (r : List HostAct) : (s.withHost r).res = s.res := rfl
@[simp] theorem State.withHost_clkCfg (s : State) (r : List HostAct) : (s.withHost r).clkCfg = s.clkCfg := rfl
@[simp] theorem State.withHost_trace (s : State) (r : List HostAct) : (s.withHost r).trace = s.trace := rfl
@[simp] theorem State.withHost_drawn (s : State) (r : List HostAct) : (s.withHost r).drawn = s.drawn := rfl
@[simp] theorem State.withHost_rsp (s : State) (r : List HostAct) : (s.withHost r).rsp = s.rsp := rfl
@[simp] theorem State.withHost_rdata (s : State) (r : List HostAct) : (s.withHost r).rdata = s.rdata := rfl
@[simp] theorem State.withHost_host (s : State) (r : List HostAct) : (s.withHost r).host = r := rfl
@[simp] theorem State.withHost_bus (s : State) (r : List HostAct) : (s.withHost r).bus = s.bus := rfl
@[simp] theorem State.withHost_wait (s : State) (r : List HostAct) : (s.withHost r).wait = s.wait := rfl
@[simp] theorem State.withHost_wire (s : State) (r : List HostAct) : (s.withHost r).wire = s.wire := rfl
@[simp] theorem State.withHost_draws (s : State) (r : List HostAct) : (s.withHost r).draws = s.draws := rfl

end Sys2Proof.Machine
end

