-- ==== Sys2Proof/Laws/Bus.lean ====
section
/-! SUPPORT. What the transports can do: one lemma per outcome of a transaction, and what a sequence of commands leaves. -/
namespace Sys2Proof.Machine

/-! ### Pieces of an operation -/

@[simp] theorem Run.bind_ok (s : State) (k : State → Run) : (Run.ok s).bind k = k s := rfl
@[simp] theorem Run.bind_failed (s : State) (k : State → Run) : (Run.failed s).bind k = .failed s := rfl
@[simp] theorem Run.bind_hung (s : State) (k : State → Run) : (Run.hung s).bind k = .hung s := rfl
@[simp] theorem Run.andThen_ok (s : State) (f : State → State) : (Run.ok s).andThen f = .ok (f s) := rfl
@[simp] theorem Run.andThen_failed (s : State) (f : State → State) : (Run.failed s).andThen f = .failed s := rfl
@[simp] theorem Run.andThen_hung (s : State) (f : State → State) : (Run.hung s).andThen f = .hung s := rfl
@[simp] theorem Run.onAnswer_ok (s : State) (f : State → State) : (Run.ok s).onAnswer f = .ok (f s) := rfl
@[simp] theorem Run.onAnswer_failed (s : State) (f : State → State) : (Run.failed s).onAnswer f = .failed (f s) := rfl
@[simp] theorem Run.onAnswer_hung (s : State) (f : State → State) : (Run.hung s).onAnswer f = .hung s := rfl
@[simp] theorem Run.state_ok (s : State) : (Run.ok s).state = s := rfl
@[simp] theorem Run.state_failed (s : State) : (Run.failed s).state = s := rfl
@[simp] theorem Run.state_hung (s : State) : (Run.hung s).state = s := rfl
@[simp] theorem Run.next_ok (s : State) : (Run.ok s).next = s.complete := rfl
@[simp] theorem Run.next_failed (s : State) : (Run.failed s).next = s.raiseBusFailure := rfl
@[simp] theorem Run.next_hung (s : State) : (Run.hung s).next = s.hang := rfl
@[simp] theorem Run.finish_eq (r : Run) : r.finish = .next r.next := rfl

/-- A bound piece: either the first piece stopped, or the rest ran from where it ended. -/
theorem Run.bind_state (r : Run) (k : State → Run) :
    (∃ s, r = .ok s ∧ (r.bind k).state = (k s).state) ∨ (r.bind k).state = r.state := by
  cases r with
  | ok s => exact .inl ⟨s, rfl, rfl⟩
  | failed s => exact .inr rfl
  | hung s => exact .inr rfl

/-! ### What the bus side can change -/

/-- Only the bus side of PSDC has moved: `TEMP`, the lines, the clock configuration, the trace (which grew), the
answers, and the transaction waited on. -/
def State.BusMoved (s t : State) : Prop :=
  t = { s with
    temp0 := t.temp0, temp1 := t.temp1, csel := t.csel, dc := t.dc, clkCfg := t.clkCfg, trace := t.trace,
    drawn := t.drawn, bus := t.bus, wait := t.wait } ∧ ∃ es, t.trace = s.trace ++ es

theorem State.BusMoved.refl (s : State) : s.BusMoved s := ⟨rfl, [], by simp⟩

theorem State.BusMoved.trans {s t u : State} (h1 : s.BusMoved t) (h2 : t.BusMoved u) : s.BusMoved u := by
  obtain ⟨e1, es1, h1⟩ := h1
  obtain ⟨e2, es2, h2⟩ := h2
  refine ⟨?_, es1 ++ es2, by rw [h2, h1, List.append_assoc]⟩
  rw [e2, e1]

theorem State.BusMoved.cfg {s t : State} (h : s.BusMoved t) : t.cfg = s.cfg := by rw [h.1]
theorem State.BusMoved.fb {s t : State} (h : s.BusMoved t) : t.fb = s.fb := by rw [h.1]
theorem State.BusMoved.fbDraw {s t : State} (h : s.BusMoved t) : t.fbDraw = s.fbDraw := by rw [h.1]

theorem State.unansweredTxn_moved (s : State) (e : Event) (r : List Reply) :
    s.BusMoved ((s.emit e).unansweredTxn e r).state := by
  unfold State.unansweredTxn
  split <;> exact ⟨rfl, [e], rfl⟩

theorem State.busTxn_moved (s : State) (e : Event) : s.BusMoved (s.busTxn e).state := by
  unfold State.busTxn
  split
  · exact ⟨rfl, [e], rfl⟩
  · exact ⟨rfl, [e], rfl⟩
  · exact State.unansweredTxn_moved s e _
  · exact State.unansweredTxn_moved s e _

theorem State.setCsel_moved (s : State) (v : Select) : s.BusMoved (s.setCsel v) := ⟨rfl, [_], rfl⟩
theorem State.setDc_moved (s : State) (v : Bit) : s.BusMoved (s.setDc v) := ⟨rfl, [_], rfl⟩
theorem State.setClk_moved (s : State) (c : ClkCfg) : s.BusMoved (s.setClk c) := ⟨rfl, [_], rfl⟩
theorem State.setTemp_moved (s : State) (a b : Byte) : s.BusMoved (s.setTemp a b) := ⟨rfl, [], by simp⟩

theorem State.csFrame_moved (s : State) (v : Bit) (bs : List Byte) : s.BusMoved (s.csFrame v bs).state := by
  unfold State.csFrame
  have h1 : s.BusMoved (((s.setClk fixedClk).setDc v).setCsel .asserted) :=
    ((State.setClk_moved _ _).trans (State.setDc_moved _ _)).trans (State.setCsel_moved _ _)
  have h2 := h1.trans (State.busTxn_moved (((s.setClk fixedClk).setDc v).setCsel .asserted) (.csBytes bs))
  cases hr : (((s.setClk fixedClk).setDc v).setCsel .asserted).busTxn (.csBytes bs) with
  | ok t => rw [hr] at h2; exact h2.trans (State.setCsel_moved _ _)
  | failed t => rw [hr] at h2; exact h2.trans (State.setCsel_moved _ _)
  | hung t => rw [hr] at h2; exact h2

theorem State.cmd_moved (s : State) (b : Byte) : s.BusMoved (s.cmd b).state := by
  unfold State.cmd
  split
  · exact (State.setTemp_moved _ _ _).trans (State.busTxn_moved _ _)
  · exact State.csFrame_moved _ _ _

theorem State.data_moved (s : State) (bs : List Byte) : s.BusMoved (s.data bs).state := by
  unfold State.data
  split
  · exact State.busTxn_moved _ _
  · exact State.csFrame_moved _ _ _

theorem sendBytes_moved (bs : List Byte) (s : State) : s.BusMoved (sendBytes bs s).state := by
  induction bs generalizing s with
  | nil => exact State.BusMoved.refl s
  | cons b bs ih =>
    have h := State.cmd_moved s b
    unfold sendBytes
    cases hc : s.cmd b with
    | ok t => rw [hc] at h; exact h.trans (ih t)
    | failed t => rw [hc] at h; exact h
    | hung t => rw [hc] at h; exact h

theorem sendBytes_append (as bs : List Byte) (s : State) :
    sendBytes (as ++ bs) s = (sendBytes as s).bind (sendBytes bs) := by
  induction as generalizing s with
  | nil => rfl
  | cons a as ih =>
    simp only [List.cons_append, sendBytes]
    cases s.cmd a with
    | ok t => exact ih t
    | failed t => rfl
    | hung t => rfl

/-- A walk of a command table sends the bytes of its commands. -/
theorem walk_eq_sendBytes (is : List Instr) (s : State) :
    walk is s = sendBytes (is.flatMap (encodeWire s.cfg.opc)) s := by
  induction is generalizing s with
  | nil => rfl
  | cons i is ih =>
    rw [List.flatMap_cons, sendBytes_append]
    unfold walk State.command
    have h := sendBytes_moved (encodeWire s.cfg.opc i) s
    cases hc : sendBytes (encodeWire s.cfg.opc i) s with
    | ok t =>
      rw [hc] at h
      rw [Run.bind_ok, Run.bind_ok, ih t, show t.cfg = s.cfg from h.cfg]
    | failed t => rfl
    | hung t => rfl

/-! ### The outcome of one transaction -/

/-- The outcome of an answer. -/
def Run.ofAnswer (a : Answer) (s : State) : Run :=
  match a with
  | .done => .ok s
  | .fail => .failed s

/-- PSDC after an answered `Cmd(b)`: the only state that depends on the transport is `TEMP` and the lines. -/
def State.cmdAnswered (s : State) (b : Byte) (a : Answer) (r : List Reply) : State :=
  match s.cfg.transport with
  | .reg => { s with
      temp0 := s.cfg.ctrlCmd, temp1 := b, trace := s.trace ++ cmdEvents s.cfg b, bus := r, drawn := s.drawn ++ [a] }
  | .cs => { s with
      clkCfg := fixedClk, dc := 0, csel := .deasserted, trace := s.trace ++ cmdEvents s.cfg b, bus := r,
      drawn := s.drawn ++ [a] }

/-- PSDC after an answered `Data(bs)`. -/
def State.dataAnswered (s : State) (bs : List Byte) (a : Answer) (r : List Reply) : State :=
  match s.cfg.transport with
  | .reg => { s with trace := s.trace ++ dataEvents s.cfg bs, bus := r, drawn := s.drawn ++ [a] }
  | .cs => { s with
      clkCfg := fixedClk, dc := 1, csel := .deasserted, trace := s.trace ++ dataEvents s.cfg bs, bus := r,
      drawn := s.drawn ++ [a] }

theorem State.cmd_answered {s : State} {a : Answer} {r : List Reply} (h : s.bus = a.reply :: r) (b : Byte) :
    s.cmd b = Run.ofAnswer a (s.cmdAnswered b a r) := by
  unfold State.cmd State.cmdAnswered cmdEvents
  split <;> rename_i ht <;> cases a <;>
    simp [State.cmdReg, State.cmdCs, State.csFrame, State.busTxn, Answer.reply, h, ht, Run.ofAnswer, fixedClk] <;>
    simp [State.emit, State.answered, State.setCsel, State.setDc, State.setClk, State.setTemp]

theorem State.data_answered {s : State} {a : Answer} {r : List Reply} (h : s.bus = a.reply :: r) (bs : List Byte) :
    s.data bs = Run.ofAnswer a (s.dataAnswered bs a r) := by
  unfold State.data State.dataAnswered dataEvents
  split <;> rename_i ht <;> cases a <;>
    simp [State.dataReg, State.dataCs, State.csFrame, State.busTxn, Answer.reply, h, ht, Run.ofAnswer, fixedClk] <;>
    simp [State.emit, State.answered, State.setCsel, State.setDc, State.setClk]

@[simp] theorem State.cmdAnswered_trace (s : State) (b : Byte) (a : Answer) (r : List Reply) :
    (s.cmdAnswered b a r).trace = s.trace ++ cmdEvents s.cfg b := by
  unfold State.cmdAnswered; split <;> rfl
@[simp] theorem State.cmdAnswered_bus (s : State) (b : Byte) (a : Answer) (r : List Reply) :
    (s.cmdAnswered b a r).bus = r := by
  unfold State.cmdAnswered; split <;> rfl
@[simp] theorem State.cmdAnswered_drawn (s : State) (b : Byte) (a : Answer) (r : List Reply) :
    (s.cmdAnswered b a r).drawn = s.drawn ++ [a] := by
  unfold State.cmdAnswered; split <;> rfl
@[simp] theorem State.cmdAnswered_cfg (s : State) (b : Byte) (a : Answer) (r : List Reply) :
    (s.cmdAnswered b a r).cfg = s.cfg := by
  unfold State.cmdAnswered; split <;> rfl
@[simp] theorem State.cmdAnswered_wait (s : State) (b : Byte) (a : Answer) (r : List Reply) :
    (s.cmdAnswered b a r).wait = s.wait := by
  unfold State.cmdAnswered; split <;> rfl
theorem State.cmdAnswered_moved (s : State) (b : Byte) (a : Answer) (r : List Reply) :
    s.BusMoved (s.cmdAnswered b a r) := by
  refine ⟨?_, _, State.cmdAnswered_trace s b a r⟩
  unfold State.cmdAnswered; split <;> rfl
@[simp] theorem State.dataAnswered_trace (s : State) (bs : List Byte) (a : Answer) (r : List Reply) :
    (s.dataAnswered bs a r).trace = s.trace ++ dataEvents s.cfg bs := by
  unfold State.dataAnswered; split <;> rfl
@[simp] theorem State.dataAnswered_bus (s : State) (bs : List Byte) (a : Answer) (r : List Reply) :
    (s.dataAnswered bs a r).bus = r := by
  unfold State.dataAnswered; split <;> rfl
@[simp] theorem State.dataAnswered_drawn (s : State) (bs : List Byte) (a : Answer) (r : List Reply) :
    (s.dataAnswered bs a r).drawn = s.drawn ++ [a] := by
  unfold State.dataAnswered; split <;> rfl
@[simp] theorem State.dataAnswered_wait (s : State) (bs : List Byte) (a : Answer) (r : List Reply) :
    (s.dataAnswered bs a r).wait = s.wait := by
  unfold State.dataAnswered; split <;> rfl
theorem State.dataAnswered_moved (s : State) (bs : List Byte) (a : Answer) (r : List Reply) :
    s.BusMoved (s.dataAnswered bs a r) := by
  refine ⟨?_, _, State.dataAnswered_trace s bs a r⟩
  unfold State.dataAnswered; split <;> rfl

/-- A sequence of commands that are all answered `Done`. -/
theorem sendBytes_done (bs : List Byte) {s : State} {r : List Reply}
    (h : s.bus = List.replicate bs.length .done ++ r) :
    ∃ t, sendBytes bs s = .ok t ∧ s.BusMoved t ∧ t.trace = s.trace ++ cmdsEvents s.cfg bs ∧ t.bus = r ∧
      t.drawn = s.drawn ++ List.replicate bs.length .done ∧ t.wait = s.wait := by
  induction bs generalizing s with
  | nil => exact ⟨s, rfl, State.BusMoved.refl s, by simp [cmdsEvents], by simpa using h, by simp, rfl⟩
  | cons b bs ih =>
    have hb : s.bus = Answer.done.reply :: (List.replicate bs.length Reply.done ++ r) := by
      simpa [List.replicate_succ, Answer.reply] using h
    obtain ⟨t, h1, h2, h3, h4, h5, h6⟩ := ih (State.cmdAnswered_bus s b .done _)
    refine ⟨t, ?_, (State.cmdAnswered_moved s b .done _).trans h2, ?_, h4, ?_, ?_⟩
    · simp only [sendBytes, State.cmd_answered hb b, Run.ofAnswer, Run.bind_ok]; exact h1
    · rw [h3]; simp [cmdsEvents]
    · rw [h5]; simp [List.replicate_succ]
    · rw [h6]; simp

/-- A `Cmd` that fails, by an answer or by a timeout (R136, R138). -/
theorem State.cmd_fails {s : State} {r : List Reply} (h : FailsNext s.cfg s.bus r) (b : Byte) :
    s.cmd b = .failed (s.cmdAnswered b .fail r) := by
  rcases h with h | ⟨h, ht⟩
  · exact State.cmd_answered (a := .fail) h b
  · obtain ⟨us, ht⟩ := Option.isSome_iff_exists.mp ht
    unfold State.cmd State.cmdAnswered cmdEvents
    rcases h with h | ⟨h, rfl⟩ <;> split <;> rename_i hc <;>
      simp [State.cmdReg, State.cmdCs, State.csFrame, State.busTxn, State.unansweredTxn, h, ht, hc, fixedClk] <;>
      simp [State.emit, State.answered, State.setCsel, State.setDc, State.setClk, State.setTemp]

/-- A `Data` that fails, by an answer or by a timeout (R136, R138). -/
theorem State.data_fails {s : State} {r : List Reply} (h : FailsNext s.cfg s.bus r) (bs : List Byte) :
    s.data bs = .failed (s.dataAnswered bs .fail r) := by
  rcases h with h | ⟨h, ht⟩
  · exact State.data_answered (a := .fail) h bs
  · obtain ⟨us, ht⟩ := Option.isSome_iff_exists.mp ht
    unfold State.data State.dataAnswered dataEvents
    rcases h with h | ⟨h, rfl⟩ <;> split <;> rename_i hc <;>
      simp [State.dataReg, State.dataCs, State.csFrame, State.busTxn, State.unansweredTxn, h, ht, hc, fixedClk] <;>
      simp [State.emit, State.answered, State.setCsel, State.setDc, State.setClk]

/-- A sequence of commands whose `k`-th transaction (from 0) fails: it stops there (R137). -/
theorem sendBytes_fail (bs : List Byte) {k : Nat} (hk : k < bs.length) {s : State} {q r : List Reply}
    (hq : FailsNext s.cfg q r) (h : s.bus = List.replicate k .done ++ q) :
    ∃ t, sendBytes bs s = .failed t ∧ s.BusMoved t ∧ t.trace = s.trace ++ cmdsEvents s.cfg (bs.take (k + 1)) ∧
      t.bus = r ∧ t.drawn = s.drawn ++ (List.replicate k .done ++ [.fail]) ∧ t.wait = s.wait := by
  induction bs generalizing s k with
  | nil => exact absurd hk (Nat.not_lt_zero _)
  | cons b bs ih =>
    cases k with
    | zero =>
      have hb : FailsNext s.cfg s.bus r := by rw [h]; simpa using hq
      refine ⟨s.cmdAnswered b .fail r, ?_, State.cmdAnswered_moved _ _ _ _, ?_, by simp, by simp, by simp⟩
      · simp only [sendBytes, State.cmd_fails hb b, Run.bind_failed]
      · simp [cmdsEvents]
    | succ k =>
      have hb : s.bus = Answer.done.reply :: (List.replicate k Reply.done ++ q) := by
        simpa [List.replicate_succ, Answer.reply] using h
      obtain ⟨t, h1, h2, h3, h4, h5, h6⟩ :=
        ih (by simpa using hk) (by rw [State.cmdAnswered_cfg]; exact hq)
          (State.cmdAnswered_bus s b .done (List.replicate k Reply.done ++ q))
      refine ⟨t, ?_, (State.cmdAnswered_moved s b .done _).trans h2, ?_, h4, ?_, ?_⟩
      · simp only [sendBytes, State.cmd_answered hb b, Run.ofAnswer, Run.bind_ok]; exact h1
      · rw [h3]; simp [cmdsEvents]
      · rw [h5]; simp [List.replicate_succ]
      · rw [h6]; simp

/-- PSDC in a `Cmd(b)` the bus never answers (R138): on `CS` chip select is still asserted. -/
def State.cmdWaiting (s : State) (b : Byte) (r : List Reply) : State :=
  match s.cfg.transport with
  | .reg => { s with
      temp0 := s.cfg.ctrlCmd, temp1 := b, trace := s.trace ++ [.regTxn s.cfg.busAddr [s.cfg.ctrlCmd, b]],
      wait := some (.regTxn s.cfg.busAddr [s.cfg.ctrlCmd, b]), bus := r }
  | .cs => { s with
      clkCfg := fixedClk, dc := 0, csel := .asserted, wait := some (.csBytes [b]), bus := r,
      trace := s.trace ++ [.clkCfg fixedClk, .sigDc 0, .sigCsel .asserted, .csBytes [b]] }

/-- PSDC in a `Data(bs)` the bus never answers (R138). -/
def State.dataWaiting (s : State) (bs : List Byte) (r : List Reply) : State :=
  match s.cfg.transport with
  | .reg => { s with
      trace := s.trace ++ [.regTxn s.cfg.busAddr (s.cfg.ctrlData :: bs)],
      wait := some (.regTxn s.cfg.busAddr (s.cfg.ctrlData :: bs)), bus := r }
  | .cs => { s with
      clkCfg := fixedClk, dc := 1, csel := .asserted, wait := some (.csBytes bs), bus := r,
      trace := s.trace ++ [.clkCfg fixedClk, .sigDc 1, .sigCsel .asserted, .csBytes bs] }

@[simp] theorem State.cmdWaiting_bus (s : State) (b : Byte) (r : List Reply) : (s.cmdWaiting b r).bus = r := by
  unfold State.cmdWaiting; split <;> rfl
@[simp] theorem State.cmdWaiting_wait (s : State) (b : Byte) (r : List Reply) :
    (s.cmdWaiting b r).wait.isSome = true := by
  unfold State.cmdWaiting; split <;> rfl
@[simp] theorem State.cmdWaiting_drawn (s : State) (b : Byte) (r : List Reply) : (s.cmdWaiting b r).drawn = s.drawn := by
  unfold State.cmdWaiting; split <;> rfl
@[simp] theorem State.cmdWaiting_trace (s : State) (b : Byte) (r : List Reply) :
    (s.cmdWaiting b r).trace = s.trace ++ unanswered s.cfg (cmdEvents s.cfg b) := by
  unfold State.cmdWaiting unanswered cmdEvents
  cases h : s.cfg.transport <;> rfl
theorem State.cmdWaiting_moved (s : State) (b : Byte) (r : List Reply) : s.BusMoved (s.cmdWaiting b r) := by
  refine ⟨?_, _, State.cmdWaiting_trace s b r⟩
  unfold State.cmdWaiting; split <;> rfl
@[simp] theorem State.dataWaiting_bus (s : State) (bs : List Byte) (r : List Reply) : (s.dataWaiting bs r).bus = r := by
  unfold State.dataWaiting; split <;> rfl
@[simp] theorem State.dataWaiting_wait (s : State) (bs : List Byte) (r : List Reply) :
    (s.dataWaiting bs r).wait.isSome = true := by
  unfold State.dataWaiting; split <;> rfl
@[simp] theorem State.dataWaiting_drawn (s : State) (bs : List Byte) (r : List Reply) :
    (s.dataWaiting bs r).drawn = s.drawn := by
  unfold State.dataWaiting; split <;> rfl
@[simp] theorem State.dataWaiting_trace (s : State) (bs : List Byte) (r : List Reply) :
    (s.dataWaiting bs r).trace = s.trace ++ unanswered s.cfg (dataEvents s.cfg bs) := by
  unfold State.dataWaiting unanswered dataEvents
  cases h : s.cfg.transport <;> rfl
theorem State.dataWaiting_moved (s : State) (bs : List Byte) (r : List Reply) : s.BusMoved (s.dataWaiting bs r) := by
  refine ⟨?_, _, State.dataWaiting_trace s bs r⟩
  unfold State.dataWaiting; split <;> rfl

theorem State.cmd_unanswered {s : State} {r : List Reply} (h : NeverAnswered s.bus r) (ht : s.cfg.busTimeout = none)
    (b : Byte) : s.cmd b = .hung (s.cmdWaiting b r) := by
  unfold State.cmd State.cmdWaiting
  rcases h with h | ⟨h, rfl⟩ <;> split <;> rename_i hc <;>
    simp [State.cmdReg, State.cmdCs, State.csFrame, State.busTxn, State.unansweredTxn, h, ht, hc, State.emit,
      State.setCsel, State.setDc, State.setClk, State.setTemp]

theorem State.data_unanswered {s : State} {r : List Reply} (h : NeverAnswered s.bus r)
    (ht : s.cfg.busTimeout = none) (bs : List Byte) : s.data bs = .hung (s.dataWaiting bs r) := by
  unfold State.data State.dataWaiting
  rcases h with h | ⟨h, rfl⟩ <;> split <;> rename_i hc <;>
    simp [State.dataReg, State.dataCs, State.csFrame, State.busTxn, State.unansweredTxn, h, ht, hc, State.emit,
      State.setCsel, State.setDc, State.setClk]

/-- A sequence of commands whose `k`-th transaction (from 0) is never answered: it waits there (R138). -/
theorem sendBytes_hang (bs : List Byte) {k : Nat} (hk : k < bs.length) {s : State} {q r : List Reply}
    (hq : NeverAnswered q r) (h : s.bus = List.replicate k .done ++ q) (ht : s.cfg.busTimeout = none) :
    ∃ t, sendBytes bs s = .hung (t.cmdWaiting (bs[k]) r) ∧ s.BusMoved t ∧
      t.trace = s.trace ++ cmdsEvents s.cfg (bs.take k) ∧ t.drawn = s.drawn ++ List.replicate k .done := by
  induction bs generalizing s k with
  | nil => exact absurd hk (Nat.not_lt_zero _)
  | cons b bs ih =>
    cases k with
    | zero =>
      have hb : NeverAnswered s.bus r := by rw [h]; simpa using hq
      refine ⟨s, ?_, State.BusMoved.refl s, by simp [cmdsEvents], by simp⟩
      simp only [sendBytes, State.cmd_unanswered hb ht, Run.bind_hung, List.getElem_cons_zero]
    | succ k =>
      have hb : s.bus = Answer.done.reply :: (List.replicate k Reply.done ++ q) := by
        simpa [List.replicate_succ, Answer.reply] using h
      obtain ⟨t, h1, h3, h4, h6⟩ :=
        ih (k := k) (by simpa using hk) (State.cmdAnswered_bus s b .done _)
          (by rw [State.cmdAnswered_cfg]; exact ht)
      refine ⟨t, ?_, (State.cmdAnswered_moved s b .done _).trans h3, ?_, ?_⟩
      · simp only [sendBytes, State.cmd_answered hb b, Run.ofAnswer, Run.bind_ok, List.getElem_cons_succ]; exact h1
      · rw [h4]; simp [cmdsEvents]
      · rw [h6]; simp [List.replicate_succ]

end Sys2Proof.Machine
end

