-- ==== Sys2Proof/Laws/Memory.lean ====
section
/-! SUPPORT. Reading after writing, and that every memory operation keeps the canonical form. -/
namespace Sys2Proof.Machine

theorem Memory.read_write_same (m : List Host.Cell) (a : Nat) (v : Byte) :
    Memory.read (Memory.write m a v) a = some v := by
  induction m with
  | nil => simp [Memory.write, Memory.read]
  | cons c m ih =>
    obtain ⟨k, w⟩ := c
    unfold Memory.write
    split
    · simp [Memory.read]
    · split
      · simp [Memory.read]
      · rename_i h1 h2
        simp [Memory.read, Ne.symm h2, ih]

theorem Memory.read_write_other (m : List Host.Cell) {a b : Nat} (v : Byte) (h : b ≠ a) :
    Memory.read (Memory.write m a v) b = Memory.read m b := by
  induction m with
  | nil => simp [Memory.write, Memory.read, Ne.symm h]
  | cons c m ih =>
    obtain ⟨k, w⟩ := c
    unfold Memory.write
    split
    · simp [Memory.read, Ne.symm h]
    · split
      · rename_i h1 h2
        subst h2
        simp [Memory.read, Ne.symm h]
      · simp [Memory.read, ih]

theorem Memory.mem_write {m : List Host.Cell} {a : Nat} {v : Byte} {c : Host.Cell}
    (h : c ∈ Memory.write m a v) : c = (a, v) ∨ c ∈ m := by
  induction m with
  | nil => simpa [Memory.write] using h
  | cons d m ih =>
    obtain ⟨k, w⟩ := d
    unfold Memory.write at h
    split at h
    · simpa using h
    · split at h
      · rcases List.mem_cons.1 h with h | h
        · exact .inl h
        · exact .inr (List.mem_cons_of_mem _ h)
      · rcases List.mem_cons.1 h with h | h
        · exact .inr (h ▸ List.mem_cons_self)
        · exact (ih h).imp_right (List.mem_cons_of_mem _)

theorem Memory.wf_write {m : List Host.Cell} (hm : Memory.wf m) (a : Nat) (v : Byte) :
    Memory.wf (Memory.write m a v) := by
  induction m with
  | nil => simp [Memory.write]
  | cons d m ih =>
    obtain ⟨k, w⟩ := d
    have hk : ∀ c ∈ m, k < c.1 := (List.pairwise_cons.1 hm).1
    have hm' : Memory.wf m := (List.pairwise_cons.1 hm).2
    unfold Memory.write
    split
    · rename_i h1
      refine List.pairwise_cons.2 ⟨fun c hc => ?_, hm⟩
      rcases List.mem_cons.1 hc with rfl | hc
      · exact h1
      · exact Nat.lt_trans h1 (hk c hc)
    · split
      · rename_i h1 h2
        subst h2
        exact List.pairwise_cons.2 ⟨hk, hm'⟩
      · rename_i h1 h2
        refine List.pairwise_cons.2 ⟨fun c hc => ?_, ih hm'⟩
        rcases Memory.mem_write hc with rfl | hc
        · simp only; omega
        · exact hk c hc

theorem Memory.below_write {n : Nat} {m : List Host.Cell} (hm : Memory.below n m) {a : Nat} (ha : a < n) (v : Byte) :
    Memory.below n (Memory.write m a v) := by
  intro c hc
  rcases Memory.mem_write hc with rfl | hc
  · exact ha
  · exact hm c hc

theorem Memory.wf_ofFun (n : Nat) (f : Nat → Byte) : Memory.wf (Memory.ofFun n f) := by
  unfold Memory.wf Memory.ofFun
  rw [List.pairwise_map]
  exact List.pairwise_lt_range

theorem Memory.below_ofFun (n : Nat) (f : Nat → Byte) : Memory.below n (Memory.ofFun n f) := by
  intro c hc
  obtain ⟨i, hi, rfl⟩ := List.mem_map.1 hc
  simpa using hi

theorem Memory.read_map (l : List Nat) (f : Nat → Byte) (i : Nat) :
    Memory.read (l.map fun i => (i, f i)) i = if i ∈ l then some (f i) else none := by
  induction l with
  | nil => simp [Memory.read]
  | cons k l ih =>
    by_cases h : k = i
    · subst h; simp [Memory.read]
    · simp [Memory.read, h, ih, Ne.symm h]

theorem Memory.read_ofFun (n : Nat) (f : Nat → Byte) (i : Nat) :
    Memory.read (Memory.ofFun n f) i = if i < n then some (f i) else none := by
  simp [Memory.ofFun, Memory.read_map]

theorem Memory.read_eq_none_of_below {n : Nat} {m : List Host.Cell} (hm : Memory.below n m) {i : Nat} (hi : n ≤ i) :
    Memory.read m i = none := by
  induction m with
  | nil => rfl
  | cons c m ih =>
    obtain ⟨k, w⟩ := c
    have hk : k < n := hm (k, w) List.mem_cons_self
    have : k ≠ i := by omega
    simpa [Memory.read, this] using ih fun c hc => hm c (List.mem_cons_of_mem _ hc)

/-- Reading the byte just written. -/
theorem State.fbRead_fbWrite_same (s : State) (i : Nat) (v : Byte) : (s.fbWrite i v).fbRead i = v := by
  simp [State.fbRead, Memory.read_write_same]

/-- A write leaves every other byte alone. -/
theorem State.fbRead_fbWrite_other (s : State) {i j : Nat} (v : Byte) (h : j ≠ i) :
    (s.fbWrite i v).fbRead j = s.fbRead j := by
  simp [State.fbRead, Memory.read_write_other _ _ h, State.fbUnwritten]

/-- After all of `FB` is set. -/
theorem State.fbRead_fbSetAll (s : State) (f : Nat → Byte) {i : Nat} (h : i < s.cfg.len) :
    (s.fbSetAll f).fbRead i = f i := by
  simp [State.fbRead, Memory.read_ofFun, h]

/-- What a byte reads as depends on `fb` and `fbDraw` alone. -/
theorem State.fbRead_congr {s t : State} (h1 : t.fb = s.fb) (h2 : t.fbDraw = s.fbDraw) (i : Nat) :
    t.fbRead i = s.fbRead i := by
  simp [State.fbRead, State.fbUnwritten, h1, h2]

/-- The memory of the state after reset has the canonical form. -/
theorem State.reset_fb_wf : Memory.wf State.reset.fb := List.Pairwise.nil

end Sys2Proof.Machine
end

