-- ==== Sys2Proof/Laws/Framebuffer.lean ====
section
/-! SUPPORT. Bits of a byte, pixels of the framebuffer, and what the drawing operations can change. -/
namespace Sys2Proof.Machine

/-! ### Bits -/

theorem bitAt_eq (b : Byte) (n : Nat) : bitAt b n = BitVec.ofBool (b.getLsbD n) := by
  apply BitVec.eq_of_getLsbD_eq
  intro i hi
  obtain rfl : i = 0 := by omega
  simp [bitAt]

theorem getLsbD_withBitAt (b : Byte) {m n : Nat} (hm : m < 8) (c : Bit) :
    (withBitAt b n c).getLsbD m = if m = n then c.getLsbD 0 else b.getLsbD m := by
  by_cases h : m = n
  · subst h; simp [withBitAt, hm]
  · by_cases h2 : m < n
    · simp [withBitAt, hm, h, h2]
    · have h3 : 1 ≤ m - n := by omega
      have h4 : m - n ≠ 0 := by omega
      simp [withBitAt, hm, h, h2, h4, BitVec.getLsbD_of_ge c (m - n) h3]

theorem bitAt_withBitAt_same (b : Byte) {n : Nat} (hn : n < 8) (c : Bit) : bitAt (withBitAt b n c) n = c := by
  rw [bitAt_eq, getLsbD_withBitAt b hn, if_pos rfl]
  clear hn; revert c; decide

theorem bitAt_withBitAt_other (b : Byte) {m n : Nat} (hm : m < 8) (h : m ≠ n) (c : Bit) :
    bitAt (withBitAt b n c) m = bitAt b m := by
  rw [bitAt_eq, bitAt_eq, getLsbD_withBitAt b hm, if_neg h]

/-- Bits of a byte decide the byte. -/
theorem byte_eq_of_bitAt {a b : Byte} (h : ∀ k < 8, bitAt a k = bitAt b k) : a = b := by
  apply BitVec.eq_of_getLsbD_eq
  intro i hi
  have := h i hi
  rw [bitAt_eq, bitAt_eq] at this
  cases ha : a.getLsbD i <;> cases hb : b.getLsbD i <;> simp_all

theorem bitAt_packByte (f : Nat → Bit) {k : Nat} (hk : k < 8) : bitAt (packByte f) k = f k := by
  have key : ∀ n ≤ 8, ∀ k < n,
      bitAt ((List.range n).foldl (fun b k => withBitAt b k (f k)) 0#8) k = f k := by
    intro n
    induction n with
    | zero => intro _ k hk; omega
    | succ n ih =>
      intro hn k hk
      rw [List.range_succ, List.foldl_append, List.foldl_cons, List.foldl_nil]
      by_cases h : k = n
      · subst h; exact bitAt_withBitAt_same _ (by omega) _
      · rw [bitAt_withBitAt_other _ (by omega) h]
        exact ih (by omega) k (by omega)
  exact key 8 (Nat.le_refl 8) k hk

/-! ### Pixels -/

theorem inRange_iff {c : Cfg} {x y : Int} : inRange c x y = true ↔ 0 ≤ x ∧ x < c.w ∧ 0 ≤ y ∧ y < c.h := by
  simp [inRange, and_assoc]

theorem pixelBit_lt (y : Int) : pixelBit y < 8 := Nat.mod_lt _ (by decide)

/-- A legal height is a multiple of 8. -/
theorem Cfg.legal_h {c : Cfg} (hc : c.legal = true) : c.h % 8 = 0 := by
  simp [Cfg.legal] at hc; omega

theorem Cfg.legal_w {c : Cfg} (hc : c.legal = true) : 1 ≤ c.w := by
  simp [Cfg.legal] at hc; omega

/-- The byte of a pixel in range lies in the framebuffer (R56). -/
theorem pixelByte_lt {c : Cfg} (hc : c.h % 8 = 0) {x y : Int} (h : inRange c x y = true) :
    pixelByte c x y < c.len := by
  obtain ⟨hx, hxw, hy, hyh⟩ := inRange_iff.1 h
  have h1 : x.toNat < c.w := by omega
  have h2 : y.toNat / 8 + 1 ≤ c.h / 8 := by omega
  have h3 : (y.toNat / 8 + 1) * c.w ≤ (c.h / 8) * c.w := Nat.mul_le_mul_right _ h2
  simp only [pixelByte, Cfg.len, Cfg.pages]
  rw [Nat.add_mul] at h3
  omega

/-- Two pixels in range with the same byte and bit are the same pixel (R51: the map is a bijection). -/
theorem pixel_injective {c : Cfg} {x y x' y' : Int} (h : inRange c x y = true) (h' : inRange c x' y' = true)
    (hb : pixelByte c x y = pixelByte c x' y') (hk : pixelBit y = pixelBit y') : x = x' ∧ y = y' := by
  obtain ⟨hx, hxw, hy, -⟩ := inRange_iff.1 h
  obtain ⟨hx', hxw', hy', -⟩ := inRange_iff.1 h'
  simp only [pixelByte] at hb
  simp only [pixelBit] at hk
  have hm : x.toNat < c.w := by omega
  have hm' : x'.toNat < c.w := by omega
  have e1 : (y.toNat / 8 * c.w + x.toNat) % c.w = x.toNat := by
    rw [Nat.mul_comm, Nat.mul_add_mod]; exact Nat.mod_eq_of_lt hm
  have e2 : (y'.toNat / 8 * c.w + x'.toNat) % c.w = x'.toNat := by
    rw [Nat.mul_comm, Nat.mul_add_mod]; exact Nat.mod_eq_of_lt hm'
  have hxx : x.toNat = x'.toNat := by rw [← e1, hb, e2]
  have hyy : y.toNat / 8 = y'.toNat / 8 := by
    rw [hxx] at hb
    exact Nat.eq_of_mul_eq_mul_right (by omega : 0 < c.w) (by omega)
  omega

/-- `SetPx` changes nothing but `FB`. -/
theorem State.setPx_only_fb (s : State) (x y : Int) (c : Bit) : s.setPx x y c = { s with fb := (s.setPx x y c).fb } := by
  unfold State.setPx; split <;> rfl

theorem State.paint_only_fb (x y : Int) (c : Bit) (ps : List (Nat × Nat)) (s : State) :
    State.paint x y c ps s = { s with fb := (State.paint x y c ps s).fb } := by
  induction ps generalizing s with
  | nil => rfl
  | cons p ps ih =>
    obtain ⟨dx, dy⟩ := p
    unfold State.paint
    rw [ih, State.setPx_only_fb]

theorem State.setPx_cfg (s : State) (x y : Int) (c : Bit) : (s.setPx x y c).cfg = s.cfg := by
  rw [State.setPx_only_fb]

theorem State.paint_cfg (x y : Int) (c : Bit) (ps : List (Nat × Nat)) (s : State) :
    (State.paint x y c ps s).cfg = s.cfg := by
  rw [State.paint_only_fb]

/-- What a pixel reads as depends on the configuration, `fb` and `fbDraw` alone. -/
theorem State.px_congr {s t : State} (h0 : t.cfg = s.cfg) (h1 : t.fb = s.fb) (h2 : t.fbDraw = s.fbDraw) (x y : Int) :
    t.px x y = s.px x y := by
  simp [State.px, State.fbRead_congr h1 h2, h0]

/-- `SetPx` keeps the canonical form. -/
theorem State.setPx_wf {s : State} (h : Memory.wf s.fb) (x y : Int) (c : Bit) : Memory.wf (s.setPx x y c).fb := by
  unfold State.setPx; split
  · exact Memory.wf_write h _ _
  · exact h

/-- `SetPx` stays inside the framebuffer (R56). -/
theorem State.setPx_below {s : State} (hc : s.cfg.h % 8 = 0) (h : Memory.below s.cfg.len s.fb) (x y : Int) (c : Bit) :
    Memory.below s.cfg.len (s.setPx x y c).fb := by
  unfold State.setPx; split
  · rename_i hr; exact Memory.below_write h (pixelByte_lt hc hr) _
  · exact h

theorem State.paint_wf (x y : Int) (c : Bit) (ps : List (Nat × Nat)) {s : State} (h : Memory.wf s.fb) :
    Memory.wf (State.paint x y c ps s).fb := by
  induction ps generalizing s with
  | nil => exact h
  | cons p ps ih => exact ih (State.setPx_wf h _ _ _)

theorem State.paint_below (x y : Int) (c : Bit) (ps : List (Nat × Nat)) {s : State} (hc : s.cfg.h % 8 = 0)
    (h : Memory.below s.cfg.len s.fb) : Memory.below s.cfg.len (State.paint x y c ps s).fb := by
  induction ps generalizing s with
  | nil => exact h
  | cons p ps ih =>
    have hb := State.setPx_below hc h (x + p.1) (y + p.2) c
    rw [← State.setPx_cfg s (x + p.1) (y + p.2) c] at hb hc
    have := ih hc hb
    rwa [State.setPx_cfg] at this

/-- A byte `SetPx` does not address keeps its value; out of range every byte does (R112). -/
theorem State.fbRead_setPx_other (s : State) (x y : Int) (c : Bit) {i : Nat}
    (h : inRange s.cfg x y = true → i ≠ pixelByte s.cfg x y) : (s.setPx x y c).fbRead i = s.fbRead i := by
  unfold State.setPx; split
  · rename_i hr; exact State.fbRead_fbWrite_other _ _ (h hr)
  · rfl

/-- Everything one `SetPx` can do to the pixels in range (R112). -/
theorem State.px_setPx (s : State) (x y : Int) (c : Bit) {x' y' : Int} (h' : inRange s.cfg x' y' = true) :
    (s.setPx x y c).px x' y' = if x' = x ∧ y' = y then c else s.px x' y' := by
  by_cases hr : inRange s.cfg x y = true
  · have e : s.setPx x y c = s.fbWrite (pixelByte s.cfg x y)
        (withBitAt (s.fbRead (pixelByte s.cfg x y)) (pixelBit y) c) := by unfold State.setPx; rw [if_pos hr]
    rw [e]
    unfold State.px
    simp only [State.fbWrite_cfg]
    by_cases hb : pixelByte s.cfg x' y' = pixelByte s.cfg x y
    · rw [hb, State.fbRead_fbWrite_same]
      by_cases hk : pixelBit y' = pixelBit y
      · obtain ⟨rfl, rfl⟩ := pixel_injective h' hr hb hk
        rw [if_pos ⟨rfl, rfl⟩, bitAt_withBitAt_same _ (pixelBit_lt _)]
      · rw [bitAt_withBitAt_other _ (pixelBit_lt _) hk, if_neg (fun e => hk (by rw [e.2]))]
    · rw [State.fbRead_fbWrite_other _ _ hb, if_neg]
      rintro ⟨rfl, rfl⟩; exact hb rfl
  · have e : s.setPx x y c = s := by unfold State.setPx; rw [if_neg hr]
    rw [e, if_neg]
    rintro ⟨rfl, rfl⟩; exact hr h'

/-- Everything a paint can do to the pixels in range. -/
theorem State.px_paint (x y : Int) (c : Bit) (ps : List (Nat × Nat)) (s : State) {x' y' : Int}
    (h' : inRange s.cfg x' y' = true) :
    (State.paint x y c ps s).px x' y' = if ∃ p ∈ ps, x' = x + p.1 ∧ y' = y + p.2 then c else s.px x' y' := by
  induction ps generalizing s with
  | nil => simp [State.paint]
  | cons p ps ih =>
    unfold State.paint
    rw [ih _ (by rw [State.setPx_cfg]; exact h'), State.px_setPx _ _ _ _ h']
    by_cases h1 : ∃ q ∈ ps, x' = x + q.1 ∧ y' = y + q.2
    · rw [if_pos h1, if_pos]
      obtain ⟨q, hq, e⟩ := h1
      exact ⟨q, List.mem_cons_of_mem _ hq, e⟩
    · rw [if_neg h1]
      by_cases h2 : x' = x + p.1 ∧ y' = y + p.2
      · rw [if_pos h2, if_pos ⟨p, List.mem_cons_self, h2⟩]
      · rw [if_neg h2, if_neg]
        rintro ⟨q, hq, e⟩
        rcases List.mem_cons.1 hq with rfl | hq
        · exact h2 e
        · exact h1 ⟨q, hq, e⟩

/-- A pixel after the whole framebuffer is set pixel by pixel. -/
theorem State.px_setAllPx (s : State) (hc : s.cfg.h % 8 = 0) (g : Int → Int → Bit) {x y : Int}
    (h : inRange s.cfg x y = true) : (s.setAllPx g).px x y = g x y := by
  have hb := pixelByte_lt hc h
  obtain ⟨hx, hxw, hy, hyh⟩ := inRange_iff.1 h
  unfold State.px State.setAllPx
  simp only [State.fbSetAll_cfg]
  rw [State.fbRead_fbSetAll _ _ hb, bitAt_packByte _ (pixelBit_lt _)]
  have hm : x.toNat < s.cfg.w := by omega
  have e1 : pixelByte s.cfg x y % s.cfg.w = x.toNat := by
    simp only [pixelByte]
    rw [Nat.mul_comm, Nat.mul_add_mod]; exact Nat.mod_eq_of_lt hm
  have e2 : pixelByte s.cfg x y / s.cfg.w = y.toNat / 8 := by
    simp only [pixelByte]
    rw [Nat.mul_comm, Nat.mul_add_div (by omega), Nat.div_eq_of_lt hm, Nat.add_zero]
  rw [e1, e2]
  congr 1
  · omega
  · simp only [pixelBit]; omega

end Sys2Proof.Machine
end

