-- ==== Sys2Proof/Laws/Text.lean ====
section
/-! SUPPORT. The pixels of a pattern, and what the text loops can change. -/
namespace Sys2Proof.Machine

/-- The painted offsets of a pattern, by membership: the blocks of R191. -/
theorem mem_glyphPixels {bit : Nat → Nat → Bit} {scale : Nat} {p : Nat × Nat} :
    p ∈ glyphPixels bit scale ↔
      ∃ r < 8, ∃ c < 8, bit c r = 1#1 ∧ ∃ sy < scale, ∃ sx < scale, p = (c * scale + sx, r * scale + sy) := by
  unfold glyphPixels
  simp only [List.mem_flatMap, List.mem_range]
  constructor
  · rintro ⟨r, hr, c, hc, h⟩
    split at h
    · rename_i hb
      simp only [List.mem_flatMap, List.mem_range, List.mem_map] at h
      obtain ⟨sy, hsy, sx, hsx, rfl⟩ := h
      exact ⟨r, hr, c, hc, hb, sy, hsy, sx, hsx, rfl⟩
    · exact absurd h List.not_mem_nil
  · rintro ⟨r, hr, c, hc, hb, sy, hsy, sx, hsx, rfl⟩
    refine ⟨r, hr, c, hc, ?_⟩
    rw [if_pos hb]
    simp only [List.mem_flatMap, List.mem_range, List.mem_map]
    exact ⟨sy, hsy, sx, hsx, rfl⟩

/-- A blank pattern paints nothing. -/
theorem glyphPixels_blank (scale : Nat) : glyphPixels (patternBit blankRows) scale = [] := by
  have h : ∀ c < 8, ∀ r < 8, patternBit blankRows c r = 0#1 := by decide
  apply List.eq_nil_iff_forall_not_mem.2
  intro p hp
  obtain ⟨r, hr, c, hc, hb, -⟩ := mem_glyphPixels.1 hp
  rw [h c hc r hr] at hb
  exact absurd hb (by decide)

theorem State.drawGlyph_only_fb (s : State) (ch : Byte) (x y : Int) (c : Bit) (sc : Nat) :
    s.drawGlyph ch x y c sc = { s with fb := (s.drawGlyph ch x y c sc).fb } := State.paint_only_fb _ _ _ _ _

theorem State.drawFontChar_only_fb (s : State) (ch : Byte) (x y : Int) (c : Bit) :
    s.drawFontChar ch x y c = { s with fb := (s.drawFontChar ch x y c).fb } := State.paint_only_fb _ _ _ _ _

/-- The TEXTS loop changes nothing but `FB` and the pen. -/
theorem textsLoop_only_fb_pen (x y : Int) (t : List Byte) (s : State) :
    textsLoop x y t s = { s with fb := (textsLoop x y t s).fb, pen := (textsLoop x y t s).pen } := by
  induction t generalizing s with
  | nil => rfl
  | cons ch t ih =>
    unfold textsLoop
    rw [ih, State.drawGlyph_only_fb]
    rfl

/-- The TEXT loop changes nothing but `FB` and the pen. -/
theorem textLoop_only_fb_pen (x y : Int) (c : Bit) (t : List Byte) (s : State) :
    textLoop x y c t s = { s with fb := (textLoop x y c t s).fb, pen := (textLoop x y c t s).pen } := by
  induction t generalizing s with
  | nil => rfl
  | cons ch t ih =>
    unfold textLoop
    rw [ih, State.drawFontChar_only_fb]
    rfl

/-- The framebuffer's form after a drawing step: sorted and inside `0 .. LEN-1`. -/
def State.FbOk (s : State) : Prop := Memory.wf s.fb ∧ Memory.below s.cfg.len s.fb

theorem State.paint_fbOk (x y : Int) (c : Bit) (ps : List (Nat × Nat)) {s : State} (hc : s.cfg.h % 8 = 0)
    (h : s.FbOk) : (State.paint x y c ps s).FbOk :=
  ⟨State.paint_wf x y c ps h.1, by rw [State.paint_cfg]; exact State.paint_below x y c ps hc h.2⟩

theorem textsLoop_fbOk (x y : Int) (t : List Byte) {s : State} (hc : s.cfg.h % 8 = 0) (h : s.FbOk) :
    (textsLoop x y t s).FbOk := by
  induction t generalizing s with
  | nil => exact h
  | cons ch t ih =>
    unfold textsLoop
    apply ih
    · show (State.drawGlyph _ _ _ _ _ _).cfg.h % 8 = 0
      unfold State.drawGlyph
      rw [State.paint_cfg]; exact hc
    · exact State.paint_fbOk _ _ _ _ hc h

theorem textLoop_fbOk (x y : Int) (c : Bit) (t : List Byte) {s : State} (hc : s.cfg.h % 8 = 0) (h : s.FbOk) :
    (textLoop x y c t s).FbOk := by
  induction t generalizing s with
  | nil => exact h
  | cons ch t ih =>
    unfold textLoop
    apply ih
    · show (State.drawFontChar _ _ _ _ _).cfg.h % 8 = 0
      unfold State.drawFontChar
      rw [State.paint_cfg]; exact hc
    · exact State.paint_fbOk _ _ _ _ hc h

theorem State.fbSetAll_fbOk (s : State) (f : Nat → Byte) : (s.fbSetAll f).FbOk :=
  ⟨Memory.wf_ofFun _ _, Memory.below_ofFun _ _⟩

end Sys2Proof.Machine
end

