-- ==== Sys2Proof/Laws/Exec.lean ====
section
/-! SUPPORT. What one instruction can do: every meaning is a body whose end is one of the three ends of an operation,
and every body moves only the state R20 lets operations write. -/
namespace Sys2Proof.Machine

/-- The body of each meaning. -/
def bodyOf : Instr → State → Run
  | .fill c, s => .ok (s.fillFb (fillByte c))
  | .setpx x y c, s => .ok (s.setPx (sext16 x) (sext16 y) c)
  | .scroll dx dy, s => .ok (s.setAllPx (s.scrolled (sext16 dx) (sext16 dy)))
  | .pwron, s => .ok s.powerOn
  | .init, s => s.initBody
  | .showFrame, s => s.showBody
  | .contrast v, s => s.command (.setContrast v)
  | .invert b, s => s.command (.setNormInv b)
  | .pwroff, s => (s.command (.setDisp 0)).andThen fun s => { s with life := .sleep }
  | .glyphs ch x y c sc, s => .ok (s.drawGlyph ch (sext16 x) (sext16 y) c (zext8 sc))
  | .texts t x y, s => .ok ((textsLoop (sext16 x) (sext16 y) t (s.setPen (some 0))).setPen none)
  | .text t x y c, s => .ok ((textLoop (sext16 x) (sext16 y) c t (s.setPen (some 0))).setPen none)
  | .setDisp n, s => s.command (.setDisp n)
  | .setMemAddr m, s => s.command (.setMemAddr m)
  | .setStartLine l, s => s.command (.setStartLine l)
  | .setSegRemap r, s => s.command (.setSegRemap r)
  | .setMuxRatio p, s => s.command (.setMuxRatio p)
  | .setComOutDir d, s => s.command (.setComOutDir d)
  | .setDispOffset p, s => s.command (.setDispOffset p)
  | .setComPinCfg p, s => s.command (.setComPinCfg p)
  | .setClkDiv p, s => s.command (.setClkDiv p)
  | .setPrecharge p, s => s.command (.setPrecharge p)
  | .setVcomDesel p, s => s.command (.setVcomDesel p)
  | .setContrast p, s => s.command (.setContrast p)
  | .setEntireOn, s => s.command .setEntireOn
  | .setNormInv i, s => s.command (.setNormInv i)
  | .setChargePump p, s => s.command (.setChargePump p)
  | .setColAddr a b, s => s.command (.setColAddr a b)
  | .setPageAddr a b, s => s.command (.setPageAddr a b)

/-- Every meaning is its body, then its end. -/
theorem exec_eq_finish (i : Instr) (s : State) : exec i s = (bodyOf i s).finish := by cases i <;> rfl

/-- What a body may have moved: everything it leaves in place is read off the equation. -/
def State.Moved (s t : State) : Prop :=
  t = { s with
    fb := t.fb, pen := t.pen, temp0 := t.temp0, temp1 := t.temp1, life := t.life, csel := t.csel, dc := t.dc,
    res := t.res, clkCfg := t.clkCfg, trace := t.trace, drawn := t.drawn, bus := t.bus, wait := t.wait } ∧
  (∃ es, t.trace = s.trace ++ es) ∧ (t.pen = s.pen ∨ t.pen = none) ∧ (s.cfg.h % 8 = 0 → s.FbOk → t.FbOk)

theorem State.Moved.refl (s : State) : s.Moved s :=
  ⟨rfl, ⟨[], by simp⟩, .inl rfl, fun _ h => h⟩

theorem State.Moved.trans {s t u : State} (h1 : s.Moved t) (h2 : t.Moved u) : s.Moved u := by
  obtain ⟨e1, ⟨es1, t1⟩, p1, f1⟩ := h1
  obtain ⟨e2, ⟨es2, t2⟩, p2, f2⟩ := h2
  have hc : t.cfg = s.cfg := by rw [e1]
  refine ⟨by rw [e2, e1], ⟨es1 ++ es2, by rw [t2, t1, List.append_assoc]⟩, ?_, fun h hs => ?_⟩
  · rcases p2 with p2 | p2
    · rcases p1 with p1 | p1
      · exact .inl (p2.trans p1)
      · exact .inr (p2.trans p1)
    · exact .inr p2
  · exact f2 (by rw [hc]; exact h) (f1 h hs)

theorem State.BusMoved.moved {s t : State} (h : s.BusMoved t) : s.Moved t := by
  obtain ⟨e, es⟩ := h
  have hc : t.cfg = s.cfg := by rw [e]
  have hf : t.fb = s.fb := by rw [e]
  refine ⟨by rw [e], es, .inl (by rw [e]), fun _ hs => ?_⟩
  unfold State.FbOk; rw [hc, hf]; exact hs

theorem State.moved_fb {s : State} (m : List Host.Cell)
    (h : s.cfg.h % 8 = 0 → s.FbOk → ({ s with fb := m } : State).FbOk) : s.Moved { s with fb := m } :=
  ⟨rfl, ⟨[], by simp⟩, .inl rfl, h⟩

theorem State.moved_life (s : State) (l : Life) : s.Moved { s with life := l } :=
  ⟨rfl, ⟨[], by simp⟩, .inl rfl, fun _ h => h⟩

theorem State.fillFb_moved (s : State) (v : Byte) : s.Moved (s.fillFb v) :=
  State.moved_fb _ fun _ _ => State.fbSetAll_fbOk s _

theorem State.paint_moved (x y : Int) (c : Bit) (ps : List (Nat × Nat)) (s : State) :
    s.Moved (State.paint x y c ps s) := by
  rw [State.paint_only_fb]
  refine State.moved_fb _ fun hc h => ?_
  rw [← State.paint_only_fb]
  exact State.paint_fbOk x y c ps hc h

theorem State.setPx_moved (x y : Int) (c : Bit) (s : State) : s.Moved (s.setPx x y c) := by
  rw [State.setPx_only_fb]
  refine State.moved_fb _ fun hc h => ⟨State.setPx_wf h.1 x y c, State.setPx_below hc h.2 x y c⟩

/-- A loop that changes only `FB` and the pen, run with a pen that is dropped at its end. -/
theorem State.moved_with_pen {s t : State}
    (e : t = { s.setPen (some 0) with fb := t.fb, pen := t.pen })
    (h : s.cfg.h % 8 = 0 → s.FbOk → t.FbOk) : s.Moved (t.setPen none) := by
  refine ⟨?_, ⟨[], ?_⟩, .inr rfl, fun hc hs => h hc hs⟩
  · rw [e]; rfl
  · rw [e]; simp

theorem walk_moved (is : List Instr) (s : State) : s.BusMoved (walk is s).state := by
  rw [walk_eq_sendBytes]; exact sendBytes_moved _ _

theorem State.showBody_moved (s : State) : s.BusMoved s.showBody.state := by
  have h := walk_moved (showTable s.cfg) s
  unfold State.showBody
  cases hw : walk (showTable s.cfg) s with
  | ok t => rw [hw] at h; exact h.trans (State.data_moved _ _)
  | failed t => rw [hw] at h; exact h
  | hung t => rw [hw] at h; exact h

theorem Run.andThen_moved {s : State} {r : Run} {f : State → State} (h : s.Moved r.state)
    (hf : ∀ t : State, t.Moved (f t)) : s.Moved (r.andThen f).state := by
  cases r with
  | ok t => exact h.trans (hf t)
  | failed t => exact h
  | hung t => exact h

theorem State.initBody_moved (s : State) : s.Moved s.initBody.state := by
  unfold State.initBody
  apply Run.andThen_moved
  · have h := walk_moved (initTable s.cfg) s
    cases hw : walk (initTable s.cfg) s with
    | ok t =>
      rw [hw] at h
      exact (h.moved.trans (State.fillFb_moved t _)).trans (State.showBody_moved _).moved
    | failed t => rw [hw] at h; exact h.moved
    | hung t => rw [hw] at h; exact h.moved
  · exact fun t => State.moved_life t .on

/-- What the reset pulse leaves (R160). -/
theorem State.resetPulse_eq (s : State) : s.resetPulse = { s with
    res := 1, trace := s.trace ++ [.sigRes 1, .delay 1000, .sigRes 0, .delay 10000, .sigRes 1] } := by
  simp [State.resetPulse, State.setRes, State.emit]

theorem State.powerOn_moved (s : State) : s.Moved s.powerOn := by
  unfold State.powerOn
  split
  · exact State.moved_life s .powered
  · rw [State.resetPulse_eq]
    exact ⟨rfl, ⟨_, rfl⟩, .inl rfl, fun _ h => h⟩

theorem State.command_moved (s : State) (i : Instr) : s.Moved (s.command i).state := (sendBytes_moved _ _).moved

/-- Everything the body of an instruction can move. -/
theorem bodyOf_moved (i : Instr) (s : State) : s.Moved (bodyOf i s).state := by
  cases i with
  | fill c => exact State.fillFb_moved s _
  | setpx x y c => exact State.setPx_moved _ _ _ s
  | scroll dx dy => exact State.moved_fb _ fun _ _ => State.fbSetAll_fbOk s _
  | pwron => exact State.powerOn_moved s
  | init => exact State.initBody_moved s
  | showFrame => exact (State.showBody_moved s).moved
  | contrast v => exact State.command_moved s _
  | invert b => exact State.command_moved s _
  | pwroff => exact Run.andThen_moved (State.command_moved s _) fun t => State.moved_life t .sleep
  | glyphs ch x y c sc => exact State.paint_moved _ _ _ _ s
  | texts t x y =>
    exact State.moved_with_pen (textsLoop_only_fb_pen _ _ t _) fun hc h => textsLoop_fbOk _ _ t hc h
  | text t x y c =>
    exact State.moved_with_pen (textLoop_only_fb_pen _ _ c t _) fun hc h => textLoop_fbOk _ _ c t hc h
  | _ => exact State.command_moved s _

end Sys2Proof.Machine
end

