-- ==== Sys2Proof/Laws/PerInstr.lean ====
section
/-! SUPPORT. Statements per instruction about its syntax: the shape of its bytes (spec R83, R87, R91). -/
namespace Sys2Proof.Laws.PacketShape

/-- The opcode byte and the length of a packet or command (R83, R87, R91), with the default command bytes; a field in
a command byte is masked out as the table masks it. -/
def expected : Instr → Byte × Byte × Nat
  | .fill _ => (0x01, 0xFF, 2)
  | .setpx _ _ _ => (0x02, 0xFF, 6)
  | .scroll _ _ => (0x03, 0xFF, 5)
  | .pwron => (0x10, 0xFF, 1)
  | .init => (0x11, 0xFF, 1)
  | .showFrame => (0x12, 0xFF, 1)
  | .contrast _ => (0x13, 0xFF, 2)
  | .invert _ => (0x14, 0xFF, 2)
  | .pwroff => (0x15, 0xFF, 1)
  | .glyphs _ _ _ _ _ => (0x20, 0xFF, 8)
  | .texts t _ _ => (0x21, 0xFF, 6 + t.length)
  | .text t _ _ _ => (0x22, 0xFF, 7 + t.length)
  | .setDisp _ => (0xAE, 0xFE, 1)
  | .setMemAddr _ => (0x20, 0xFF, 2)
  | .setStartLine _ => (0x40, 0xC0, 1)
  | .setSegRemap _ => (0xA0, 0xFE, 1)
  | .setMuxRatio _ => (0xA8, 0xFF, 2)
  | .setComOutDir _ => (0xC0, 0xF7, 1)
  | .setDispOffset _ => (0xD3, 0xFF, 2)
  | .setComPinCfg _ => (0xDA, 0xFF, 2)
  | .setClkDiv _ => (0xD5, 0xFF, 2)
  | .setPrecharge _ => (0xD9, 0xFF, 2)
  | .setVcomDesel _ => (0xDB, 0xFF, 2)
  | .setContrast _ => (0x81, 0xFF, 2)
  | .setEntireOn => (0xA4, 0xFF, 1)
  | .setNormInv _ => (0xA6, 0xFE, 1)
  | .setChargePump _ => (0x8D, 0xFF, 2)
  | .setColAddr _ _ => (0x21, 0xFF, 3)
  | .setPageAddr _ _ => (0x22, 0xFF, 3)

/-- The bytes of an instruction start with its row's `match` under its row's `mask`, and are as many as R83, R87 and
R91 say. -/
def Statement (i : Instr) : Prop :=
  (∃ b r, encode i = b :: r ∧ b &&& (expected i).2.1 = (expected i).1) ∧ (encode i).length = (expected i).2.2

theorem fill (c : Bit) : Statement (.fill c) := ⟨⟨_, _, rfl, by simp [expected]⟩, rfl⟩
theorem setpx (x y : S16) (c : Bit) : Statement (.setpx x y c) := ⟨⟨_, _, rfl, by simp [expected]⟩, rfl⟩
theorem scroll (dx dy : S16) : Statement (.scroll dx dy) := ⟨⟨_, _, rfl, by simp [expected]⟩, rfl⟩
theorem pwron : Statement .pwron := ⟨⟨_, _, rfl, by decide⟩, rfl⟩
theorem init : Statement .init := ⟨⟨_, _, rfl, by decide⟩, rfl⟩
theorem showFrame : Statement .showFrame := ⟨⟨_, _, rfl, by decide⟩, rfl⟩
theorem contrast (v : Byte) : Statement (.contrast v) := ⟨⟨_, _, rfl, by simp [expected]⟩, rfl⟩
theorem invert (b : Bit) : Statement (.invert b) := ⟨⟨_, _, rfl, by simp [expected]⟩, rfl⟩
theorem pwroff : Statement .pwroff := ⟨⟨_, _, rfl, by decide⟩, rfl⟩
theorem glyphs (ch : Byte) (x y : S16) (c : Bit) (sc : Byte) : Statement (.glyphs ch x y c sc) :=
  ⟨⟨_, _, rfl, by simp [expected]⟩, rfl⟩
theorem texts (t : List Byte) (x y : S16) : Statement (.texts t x y) :=
  ⟨⟨0x21, s16Bytes x ++ s16Bytes y ++ BitVec.ofNat 8 t.length :: t, rfl,
    by simp [expected]⟩, by simp [encode, Instr.isHost, encodePacket, s16Bytes, expected]; omega⟩
theorem text (t : List Byte) (x y : S16) (c : Bit) : Statement (.text t x y c) :=
  ⟨⟨0x22, s16Bytes x ++ s16Bytes y ++ c.setWidth 8 :: BitVec.ofNat 8 t.length :: t,
    rfl, by simp [expected]⟩, by simp [encode, Instr.isHost, encodePacket, s16Bytes, expected]; omega⟩
theorem setDisp (n : Bit) : Statement (.setDisp n) := ⟨⟨_, _, rfl, by revert n; decide⟩, rfl⟩
theorem setMemAddr (m : Byte) : Statement (.setMemAddr m) := ⟨⟨_, _, rfl, by simp [expected, Opc.std]⟩, rfl⟩
theorem setStartLine (l : BitVec 6) : Statement (.setStartLine l) := ⟨⟨_, _, rfl, by revert l; decide⟩, rfl⟩
theorem setSegRemap (r : Bit) : Statement (.setSegRemap r) := ⟨⟨_, _, rfl, by revert r; decide⟩, rfl⟩
theorem setMuxRatio (p : Byte) : Statement (.setMuxRatio p) := ⟨⟨_, _, rfl, by simp [expected, Opc.std]⟩, rfl⟩
theorem setComOutDir (d : Bit) : Statement (.setComOutDir d) := ⟨⟨_, _, rfl, by revert d; decide⟩, rfl⟩
theorem setDispOffset (p : Byte) : Statement (.setDispOffset p) := ⟨⟨_, _, rfl, by simp [expected, Opc.std]⟩, rfl⟩
theorem setComPinCfg (p : Byte) : Statement (.setComPinCfg p) := ⟨⟨_, _, rfl, by simp [expected, Opc.std]⟩, rfl⟩
theorem setClkDiv (p : Byte) : Statement (.setClkDiv p) := ⟨⟨_, _, rfl, by simp [expected, Opc.std]⟩, rfl⟩
theorem setPrecharge (p : Byte) : Statement (.setPrecharge p) := ⟨⟨_, _, rfl, by simp [expected, Opc.std]⟩, rfl⟩
theorem setVcomDesel (p : Byte) : Statement (.setVcomDesel p) := ⟨⟨_, _, rfl, by simp [expected, Opc.std]⟩, rfl⟩
theorem setContrast (p : Byte) : Statement (.setContrast p) := ⟨⟨_, _, rfl, by simp [expected, Opc.std]⟩, rfl⟩
theorem setEntireOn : Statement .setEntireOn := ⟨⟨_, _, rfl, by decide⟩, rfl⟩
theorem setNormInv (i : Bit) : Statement (.setNormInv i) := ⟨⟨_, _, rfl, by revert i; decide⟩, rfl⟩
theorem setChargePump (p : Byte) : Statement (.setChargePump p) := ⟨⟨_, _, rfl, by simp [expected, Opc.std]⟩, rfl⟩
theorem setColAddr (a b : Byte) : Statement (.setColAddr a b) := ⟨⟨_, _, rfl, by simp [expected, Opc.std]⟩, rfl⟩
theorem setPageAddr (a b : Byte) : Statement (.setPageAddr a b) := ⟨⟨_, _, rfl, by simp [expected, Opc.std]⟩, rfl⟩

end Sys2Proof.Laws.PacketShape
end

