-- ==== Sys2Proof/Laws/Port.lean ====
section
/-! SUPPORT. What one step can do, said once. -/
namespace Sys2Proof.Machine

/-- What a byte on the command port can lead to (R29, R86, R88). -/
theorem State.accept_cases (s : State) (b : Byte) :
    (∃ i r, parsePacket (s.pkt ++ [b]) = .complete i r ∧ s.accept b = { s with ph := .exec, pkt := s.pkt ++ [b] }) ∨
    (parsePacket (s.pkt ++ [b]) = .incomplete ∧ s.accept b = { s with ph := .collect, pkt := s.pkt ++ [b] }) ∨
    (∃ r, parsePacket (s.pkt ++ [b]) = .illegal r ∧ s.accept b = s.illegal) := by
  unfold State.accept
  cases h : parsePacket (s.pkt ++ [b]) with
  | complete i r => exact .inl ⟨i, r, rfl, rfl⟩
  | incomplete => exact .inr (.inl ⟨rfl, rfl⟩)
  | illegal r => exact .inr (.inr ⟨r, rfl, rfl⟩)

/-- A read on the read-back port changes only `fb_rdata`, and the draw counter when the byte is unspecified (R41). -/
theorem State.serveRead_eq (s : State) (i : Nat) :
    s.serveRead i = { s with rdata := (s.serveRead i).rdata, draws := (s.serveRead i).draws } ∧
      s.draws ≤ (s.serveRead i).draws := by
  unfold State.serveRead
  split
  · exact ⟨rfl, Nat.le_refl _⟩
  · exact ⟨rfl, Nat.le_succ _⟩

/-- What EXEC with nothing in flight does. -/
theorem State.runHeld_cases (s : State) :
    (∃ i, s.fetch = some i ∧ s.runHeld = .run i s) ∨ (s.fetch = none ∧ s.runHeld = .stop .execEmpty) := by
  unfold State.runHeld
  cases h : s.fetch with
  | some i => exact .inl ⟨i, rfl, rfl⟩
  | none => exact .inr ⟨rfl, rfl⟩

/-- The ways a step can answer a next state. -/
inductive StepCase (s s' : State) : Prop where
  /-- the host asserts reset -/
  | reset (rest : List HostAct) (host : s.host = .reset :: rest) (eq : s' = (s.tick.withHost rest).doReset)
  /-- the host reads the framebuffer back -/
  | read (i : Nat) (rest : List HostAct) (host : s.host = .read i :: rest)
      (eq : s' = (s.tick.withHost rest).serveRead i)
  /-- PSDC takes a byte -/
  | accept (b : Byte) (rest : List HostAct) (host : s.host = .send b :: rest) (ph : s.ph = .idle ∨ s.ph = .collect)
      (eq : s' = (s.tick.withHost rest).accept b)
  /-- a byte PSDC cannot take -/
  | deaf (b : Byte) (rest : List HostAct) (host : s.host = .send b :: rest)
      (ph : s.ph = .fault ∨ s.ph = .exec ∧ s.wait.isSome = true) (eq : s' = s.tick.withHost rest)
  /-- nothing to do -/
  | idle (host : s.host = []) (ph : s.ph ≠ .exec) (eq : s' = s.tick)
  /-- the host pauses and PSDC has nothing to run -/
  | pause (rest : List HostAct) (host : s.host = .pause :: rest) (ph : s.ph ≠ .exec ∨ s.wait.isSome = true)
      (eq : s' = s.tick.withHost rest)
  /-- an operation runs; a pause of the host is over with it -/
  | run (i : Instr) (rest : List HostAct) (host : rest = s.host ∨ s.host = .pause :: rest) (ph : s.ph = .exec)
      (wait : s.wait = none) (fetch : s.fetch = some i) (eq : exec i (s.tick.withHost rest) = .next s')

theorem not_isSome {α : Type} {o : Option α} (h : ¬ o.isSome = true) : o = none := by
  cases o with
  | none => rfl
  | some a => exact absurd rfl h

theorem step_runHeld {s s' : State} (rest : List HostAct) (host : rest = s.host ∨ s.host = .pause :: rest)
    (ph : s.ph = .exec) (hw : ¬ s.wait.isSome = true)
    (h : (match (s.tick.withHost rest).runHeld with
      | .run i t => exec i t
      | .go t => .next t
      | .stop r => .fault r
      | .refuse r => .refused r) = Host.Outcome.next s') : StepCase s s' := by
  rcases State.runHeld_cases (s.tick.withHost rest) with ⟨i, hf, hr⟩ | ⟨-, hr⟩
  · rw [hr] at h; exact .run i rest host ph (not_isSome hw) hf h
  · rw [hr] at h; exact absurd h (by simp)

/-- A pause gives PSDC nothing to run, or lets it run. -/
theorem State.paused_cases (s : State) :
    ((s.ph ≠ .exec ∨ s.wait.isSome = true) ∧ s.paused = .go s) ∨
    (s.ph = .exec ∧ s.wait.isSome = false ∧ s.paused = s.runHeld) := by
  unfold State.paused
  cases hp : s.ph with
  | idle => exact .inl ⟨.inl (by decide), rfl⟩
  | collect => exact .inl ⟨.inl (by decide), rfl⟩
  | fault => exact .inl ⟨.inl (by decide), rfl⟩
  | exec =>
    cases hw : s.wait.isSome with
    | true => exact .inl ⟨.inr rfl, rfl⟩
    | false => exact .inr ⟨rfl, rfl, rfl⟩

/-- Everything a step that answers a next state can have done. -/
theorem step_next_cases {s s' : State} (h : step s = .next s') : s.cfg.legal = true ∧ StepCase s s' := by
  unfold step State.nextAction at h
  by_cases hl : s.cfg.legal = true
  · refine ⟨hl, ?_⟩
    rw [if_pos hl] at h
    match hh : s.host, h with
    | .reset :: rest, h => injection h with h; exact .reset rest hh h.symm
    | .read i :: rest, h => injection h with h; exact .read i rest hh h.symm
    | .pause :: rest, h =>
      rcases State.paused_cases (s.tick.withHost rest) with ⟨hp, hr⟩ | ⟨hp, hw, hr⟩
      · simp only [hr] at h; injection h with h; exact .pause rest hh hp h.symm
      · simp only [hr] at h; exact step_runHeld rest (.inr hh) hp (fun hc => absurd (hw.symm.trans hc) (by decide)) h
    | .send b :: rest, h =>
      simp only [State.offered, State.tick_ph] at h
      cases hp : s.ph with
      | idle => rw [hp] at h; injection h with h; exact .accept b rest hh (.inl hp) h.symm
      | collect => rw [hp] at h; injection h with h; exact .accept b rest hh (.inr hp) h.symm
      | fault => rw [hp] at h; injection h with h; exact .deaf b rest hh (.inl hp) h.symm
      | exec =>
        rw [hp] at h
        by_cases hw : s.tick.wait.isSome = true
        · simp only [if_pos hw] at h; injection h with h; exact .deaf b rest hh (.inr ⟨hp, hw⟩) h.symm
        · simp only [if_neg hw] at h; exact step_runHeld s.host (.inl rfl) hp hw h
    | [], h =>
      simp only [State.alone] at h
      by_cases hb : (s.tick.busy && s.tick.wait.isSome) = true
      · simp only [if_pos hb] at h; exact absurd h (by simp)
      · simp only [if_neg hb] at h
        rcases State.paused_cases s.tick with ⟨hp, hr⟩ | ⟨hp, hw, hr⟩
        · simp only [hr] at h; injection h with h
          refine .idle hh (fun hx => hb ?_) h.symm
          rcases hp with hp | hp
          · exact absurd hx hp
          · rw [hp, Bool.and_true]; exact decide_eq_true hx
        · simp only [hr] at h
          exact step_runHeld s.host (.inl rfl) hp (fun hc => absurd (hw.symm.trans hc) (by decide)) h
  · rw [if_neg hl] at h; exact absurd h (by simp)

end Sys2Proof.Machine
end

