-- ==== Sys2Proof/Laws/Receiver.lean ====
section
/-! SUPPORT. Laws of the informative receiver. -/
namespace Sys2Proof.Machine

@[simp] theorem Rx.run_nil (c : Cfg) (rx : Rx) : Rx.run c [] rx = rx := rfl

@[simp] theorem Rx.run_cons (c : Cfg) (e : Event) (es : List Event) (rx : Rx) :
    Rx.run c (e :: es) rx = Rx.run c es (rx.event c e) := rfl

@[simp] theorem Rx.run_append (c : Cfg) (as bs : List Event) (rx : Rx) :
    Rx.run c (as ++ bs) rx = Rx.run c bs (Rx.run c as rx) := List.foldl_append

/-- An advance moves the two pointers and nothing else. -/
theorem Rx.advance_eq (rx : Rx) : rx.advance = { rx with col := rx.advance.col, page := rx.advance.page } := by
  unfold Rx.advance
  split
  · rfl
  · split <;> rfl

@[simp] theorem Rx.advance_ram (rx : Rx) : rx.advance.ram = rx.ram := by rw [Rx.advance_eq]
@[simp] theorem Rx.advance_mode (rx : Rx) : rx.advance.mode = rx.mode := by rw [Rx.advance_eq]

/-- A pointer inside its window goes one up. -/
theorem Rx.advance_inside {rx : Rx} (h : rx.col < rx.colLast) : rx.advance = { rx with col := rx.col + 1 } := if_pos h

/-- At the window's end the column pointer returns to the start and the page pointer advances. -/
theorem Rx.advance_end {rx : Rx} (h : rx.col = rx.colLast) :
    rx.advance = { rx with col := rx.colFirst, page := rx.nextPage } := by
  unfold Rx.advance
  rw [if_neg (by omega), if_pos h]

/-- In horizontal mode a data byte is stored at the pointers, whatever the pointers do then. -/
theorem Rx.dataByte_ram {o : Opc} {rx : Rx} (h : rx.mode = o.modeHorizontal) (v : Byte) :
    (rx.dataByte o v).ram = Memory.write rx.ram (rxCell rx.page rx.col) v := by
  unfold Rx.dataByte
  rw [if_pos h, Rx.advance_ram]

/-- Where every transaction was answered `Done`, the receiver takes everything. -/
theorem Rx.runAnswered_done (c : Cfg) (es : List Event) (n : Nat) (rx : Rx) :
    Rx.runAnswered c es (List.replicate (es.filter Event.isTxn).length .done) n rx = Rx.run c es rx := by
  induction es generalizing rx with
  | nil => rfl
  | cons e es ih =>
    by_cases h : e.isTxn = true
    · simp only [List.filter_cons, h, if_true, List.length_cons, List.replicate_succ, Rx.runAnswered, Rx.run_cons, ih]
    · simp only [List.filter_cons, h, Rx.runAnswered, Rx.run_cons, ih, Bool.false_eq_true, if_false]

end Sys2Proof.Machine
end

