-- ==== Sys2Proof/Tests/Slice0.lean ====
section
/-! SUPPORT. The model's own tests: ill-formed instructions, words written out from the spec's encodings, and single
operations against the vectors of spec/95_test_vectors.md (their glyph and font tables are that file's fixtures). -/
-- Many kernel evaluations at once would each take a thread of their own; one after another they fit in the memory.
set_option Elab.async false
namespace Sys2Proof.Tests
open Sys2Proof.Machine

/-- `GLYPH_T`, the rows the vectors below use. -/
def glyphT : GlyphTable :=
  [ (0x20, #v[0, 0, 0, 0, 0, 0, 0, 0]),
    (0x2E, #v[0, 0, 0, 0, 0, 0, 0x60, 0x60]),
    (0x31, #v[0x18, 0x38, 0x18, 0x18, 0x18, 0x18, 0x7E, 0]),
    (0x32, #v[0x3C, 0x66, 0x06, 0x0C, 0x30, 0x60, 0x7E, 0]),
    (0x33, #v[0x3C, 0x66, 0x06, 0x1C, 0x06, 0x66, 0x3C, 0]),
    (0x35, #v[0x7E, 0x60, 0x7C, 0x06, 0x06, 0x66, 0x3C, 0]),
    (0x67, #v[0, 0, 0x3E, 0x66, 0x66, 0x3E, 0x06, 0x7C]) ]

/-- `FONT8_T`. -/
def fontT : GlyphTable := [(0x41, #v[0x3C, 0x66, 0x66, 0x7E, 0x66, 0x66, 0x66, 0])]

/-- A configuration of the vectors. -/
def tcfg (w h : Nat) (t : Transport) : Cfg :=
  { Cfg.initial with w := w, h := h, transport := t, glyph := glyphT, font8 := fontT }

/-- A PSDC in EXEC with the framebuffer and the bus answers given. -/
def st (c : Cfg) (fb : List Byte) (bus : List Reply) : State :=
  { State.afterReset c 0 [] bus with fb := Memory.ofFun fb.length (fun i => fb.getD i 0), ph := .exec }

/-- The framebuffer after an operation. -/
def fbOf : Host.Outcome State Fault Refusal → Option (List Byte)
  | .next s => some s.fbBytes
  | _ => none

/-- A field after an operation. -/
def after {α : Type} (o : Host.Outcome State Fault Refusal) (f : State → α) : Option α :=
  match o with
  | .next s => some (f s)
  | _ => none

def zeros (n : Nat) : List Byte := List.replicate n 0
def ones (n : Nat) : List Byte := List.replicate n 0xFF

/-- A small PSDC in EXEC with a packet that has just arrived. -/
def held8 (pkt : List Byte) : State := { st (tcfg 4 8 .reg) (zeros 4) [] with pkt := pkt }

/-! ### Ill-formed instructions (R82, R85) -/

/-- A 256-character string has no `u8` length. -/
theorem test_wf_texts_refuses_256 : (Instr.texts (zeros 256) 0 0).wellFormed = false := by decide +kernel

/-- The same on the unscaled path. -/
theorem test_wf_text_refuses_256 : (Instr.text (zeros 256) 0 0 1).wellFormed = false := by decide +kernel

/-- 255 characters fit. -/
theorem test_wf_texts_takes_255 : (Instr.texts (zeros 255) 0 0).wellFormed = true := by decide +kernel

/-! ### Host packets: V40 to V63 -/

/-- V40, R83. -/
theorem test_decode_fill : decodeAll true [0x01, 0x01] = some (.fill 1) := by decide +kernel

/-- V44: 300 and -32768. -/
theorem test_decode_setpx : decodeAll true [0x02, 0x2C, 0x01, 0x00, 0x80, 0x00] = some (.setpx (BitVec.ofInt 16 300) (BitVec.ofInt 16 (-32768)) 0) := by decide +kernel

/-- V46: -3 and -9. -/
theorem test_decode_scroll : decodeAll true [0x03, 0xFD, 0xFF, 0xF7, 0xFF] = some (.scroll (BitVec.ofInt 16 (-3)) (BitVec.ofInt 16 (-9))) := by decide +kernel

/-- V47. -/
theorem test_decode_pwron : decodeAll true [0x10] = some (.pwron) := by decide +kernel

/-- V48. -/
theorem test_decode_init : decodeAll true [0x11] = some (.init) := by decide +kernel

/-- V49. -/
theorem test_decode_show : decodeAll true [0x12] = some (.showFrame) := by decide +kernel

/-- V50. -/
theorem test_decode_contrast : decodeAll true [0x13, 0x40] = some (.contrast 0x40) := by decide +kernel

/-- V51. -/
theorem test_decode_invert : decodeAll true [0x14, 0x01] = some (.invert 1) := by decide +kernel

/-- V52. -/
theorem test_decode_pwroff : decodeAll true [0x15] = some (.pwroff) := by decide +kernel

/-- V54: Z at (-2, 5). -/
theorem test_decode_glyphs : decodeAll true [0x20, 0x5A, 0xFE, 0xFF, 0x05, 0x00, 0x01, 0x02] = some (.glyphs 0x5A (BitVec.ofInt 16 (-2)) 5 1 2) := by decide +kernel

/-- V55. -/
theorem test_decode_texts : decodeAll true [0x21, 0x00, 0x00, 0x00, 0x00, 0x04, 0x31, 0x32, 0x2E, 0x33] = some (.texts [0x31, 0x32, 0x2E, 0x33] 0 0) := by decide +kernel

/-- V58. -/
theorem test_decode_text : decodeAll true [0x22, 0x01, 0x00, 0x04, 0x00, 0x01, 0x03, 0x41, 0x20, 0x41] = some (.text [0x41, 0x20, 0x41] 1 4 1) := by decide +kernel

/-- V59: reserved opcodes are refused at the first byte. -/
theorem test_decode_reserved : [0x00, 0x04, 0x16, 0x23, 0xFF].map (fun b => parsePacket [b]) =
    [0x00, 0x04, 0x16, 0x23, 0xFF].map (fun b => Parse.illegal (.reservedOpcode b)) := by decide +kernel

/-- V60 to V62: a reserved `bit` byte is refused as it arrives. -/
theorem test_decode_reserved_bit : [[0x01, 0x02], [0x02, 0x00, 0x00, 0x00, 0x00, 0xFF], [0x22, 0x00, 0x00, 0x00, 0x00, 0x02]].map parsePacket =
    [.illegal (.reservedBit 2), .illegal (.reservedBit 0xFF), .illegal (.reservedBit 2)] := by decide +kernel

/-- V63: two of four characters have arrived. -/
theorem test_decode_short : parsePacket [0x21, 0x00, 0x00, 0x00, 0x00, 0x04, 0x31, 0x32] = .incomplete := by decide +kernel

/-! ### Controller commands: the bit patterns of spec/opcode_table.json, fields as PSDC sends them (R93, V1) -/

/-- 1010111n, n = 1. -/
theorem test_decode_set_disp : decodeAll false [0xAF] = some (.setDisp 1) := by decide +kernel

/-- 00100000 mmmmmmmm, horizontal. -/
theorem test_decode_set_mem_addr : decodeAll false [0x20, 0x00] = some (.setMemAddr 0) := by decide +kernel

/-- 01llllll, line 33. -/
theorem test_decode_set_start_line : decodeAll false [0x61] = some (.setStartLine 33) := by decide +kernel

/-- 1010000r, r = 1. -/
theorem test_decode_set_seg_remap : decodeAll false [0xA1] = some (.setSegRemap 1) := by decide +kernel

/-- H - 1 = 63. -/
theorem test_decode_set_mux_ratio : decodeAll false [0xA8, 0x3F] = some (.setMuxRatio 63) := by decide +kernel

/-- 1100d000, d = 1. -/
theorem test_decode_set_com_out_dir : decodeAll false [0xC8] = some (.setComOutDir 1) := by decide +kernel

/-- offset 0. -/
theorem test_decode_set_disp_offset : decodeAll false [0xD3, 0x00] = some (.setDispOffset 0) := by decide +kernel

/-- 12. -/
theorem test_decode_set_com_pin_cfg : decodeAll false [0xDA, 0x12] = some (.setComPinCfg 0x12) := by decide +kernel

/-- 80. -/
theorem test_decode_set_clk_div : decodeAll false [0xD5, 0x80] = some (.setClkDiv 0x80) := by decide +kernel

/-- F1. -/
theorem test_decode_set_precharge : decodeAll false [0xD9, 0xF1] = some (.setPrecharge 0xF1) := by decide +kernel

/-- 30. -/
theorem test_decode_set_vcom_desel : decodeAll false [0xDB, 0x30] = some (.setVcomDesel 0x30) := by decide +kernel

/-- FF. -/
theorem test_decode_set_contrast : decodeAll false [0x81, 0xFF] = some (.setContrast 0xFF) := by decide +kernel

/-- 10100100. -/
theorem test_decode_set_entire_on : decodeAll false [0xA4] = some (.setEntireOn) := by decide +kernel

/-- 1010011i, i = 1. -/
theorem test_decode_set_norm_inv : decodeAll false [0xA7] = some (.setNormInv 1) := by decide +kernel

/-- 14. -/
theorem test_decode_set_charge_pump : decodeAll false [0x8D, 0x14] = some (.setChargePump 0x14) := by decide +kernel

/-- columns 32 to 95. -/
theorem test_decode_set_col_addr : decodeAll false [0x21, 0x20, 0x5F] = some (.setColAddr 32 95) := by decide +kernel

/-- pages 0 to 7. -/
theorem test_decode_set_page_addr : decodeAll false [0x22, 0x00, 0x07] = some (.setPageAddr 0 7) := by decide +kernel

/-- A byte outside the table is no command. -/
theorem test_decode_unknown_command : parseWire Opc.std [0x00] = .illegal (.unknownCommand 0x00) := by decide +kernel

/-! ### Table words and the step that runs them -/

/-- Host operation and command with the same first byte (R80, log 14). -/
theorem test_table_two_encodings : (decodeTableWord 8 0x20, decodeTableWord 16 0x0020, decodeTableWord 24 0x5F2021, decodeTableWord 8 0xAF) =
    (some (.glyphs 0 0 0 0 0), some (.setMemAddr 0), some (.setColAddr 0x20 0x5F), some (.setDisp 1)) := by decide +kernel

/-- From reset with FILL 1 placed, the next step fills (R111). -/
theorem test_step_runs_table_word : after (step (State.reset.withFetchWord 16 0x0101)) (fun s => (s.ph, s.rsp, Memory.read s.fb 1023, Memory.read s.fb 1024)) =
    some (.idle, some .ok, some 0xFF, none) := by decide +kernel

/-- From reset with OPC.SET_DISP 1 placed and no answer to come, the transaction is emitted and waits (R131, R138). -/
theorem test_step_runs_table_command : after (step (State.reset.withFetchWord 8 0xAF)) (fun s => (s.ph, s.trace)) =
    some (.exec, [.regTxn 0x3C [0x80, 0xAF]]) := by decide +kernel

/-- The first byte of SETPX takes IDLE to COLLECT (R29). -/
theorem test_step_accepts_byte : after (step { State.reset with host := [.send 0x02] }) (fun s => (s.ph, s.pkt, s.rsp)) = some (.collect, [0x02], none) := by decide +kernel

/-- P4 step 5: `01 02` gives response 02 and FAULT, nothing else. -/
theorem test_step_illegal : after (step { State.reset with ph := .collect, pkt := [0x01], host := [.send 0x02] }) (fun s => (s.ph, s.rsp, s.pkt, s.faulted)) =
    some (.fault, some .illegalCommand, [0x01], true) := by decide +kernel

/-- P4 step 6: in FAULT a byte is not accepted. -/
theorem test_step_fault_deaf : after (step { State.reset with ph := .fault, host := [.send 0x01] }) (fun s => (s.ph, s.pkt, s.cmdReady)) = some (.fault, [], false) := by decide +kernel

/-- Reset leaves FAULT; BUSERR and LIFE go back (R36). -/
theorem test_step_reset : after (step { State.reset with ph := .fault, busErr := true, life := .on, host := [.reset] }) (fun s => (s.ph, s.busErr, s.life, s.draws)) =
    some (.idle, false, .reset, 2) := by decide +kernel

/-- The read-back port returns the byte when PSDC is not busy (R41). -/
theorem test_step_read_back : after (step { st (tcfg 4 8 .reg) [1, 2, 3, 4] [] with ph := .idle, host := [.read 2] }) (fun s => s.rdata) = some (some 3) := by decide +kernel

/-- A hung bus with a silent host is stuck (R138, V9 h). -/
theorem test_step_hung : step { State.reset with ph := .exec, wait := some (.regTxn 0x3C [0x80, 0x21]) } = .fault .busHung := rfl

/-- R41, R258: FILL 1 runs in the host's pause, then the read in IDLE returns what it left, then INIT is taken. -/
theorem test_step_read_after_fill :
    ((after (step { held8 [0x01, 0x01] with host := [.pause, .read 3, .send 0x11] }) fun s =>
      (s.rsp, after (step s) fun s => (s.rdata, after (step s) fun s => s.ph))) :
        Option (Option Rsp × Option (Option Byte × Option Phase))) =
    some (some .ok, some (some 0xFF, some .exec)) := by decide +kernel

/-- R264, R258: a transaction hangs SHOW, reset ends the wait, and the bus answers the next transaction. -/
theorem test_step_hang_reset_done :
    ((after (exec .showFrame { State.reset with ph := .exec, bus := [.never, .done], host := [.reset] }) fun s =>
      after (step s) fun s => (s.bus, after (exec .pwroff s) fun s => (s.rsp, s.life))) : Option (Option (List Reply × Option (Option Rsp × Life)))) =
    some (some ([.done], some (some .ok, .sleep))) := by decide +kernel

/-- R138: with a timeout the expiry is a Fail, and the bus goes on with the next transaction. -/
theorem test_timeout_fails : after (exec (.invert 1) (st { tcfg 4 8 .reg with busTimeout := some 1000 } (zeros 4) [.never, .done]))
    (fun s => (s.rsp, s.drawn, s.bus)) = some (some .busFailure, [.fail], [.done]) := by decide +kernel

/-! ### The framebuffer unit: V8 to V16 -/

/-- Example of R111. -/
theorem test_fill : fbOf (exec (.fill 1) (st (tcfg 4 8 .reg) (zeros 4) [])) = some [0xFF, 0xFF, 0xFF, 0xFF] := by decide +kernel

/-- Example of R113: (2, 9) is byte 6, bit 1. -/
theorem test_setpx_in_range : fbOf (exec (.setpx 2 9 1) (st (tcfg 4 16 .reg) (zeros 8) [])) = some [0x00, 0x00, 0x00, 0x00, 0x00, 0x00, 0x02, 0x00] := by decide +kernel

/-- V15: (8, 0) is not the first byte of page 1. -/
theorem test_setpx_out_of_range : fbOf (exec (.setpx 8 0 1) (st (tcfg 8 16 .reg) (zeros 16) [])) = some (zeros 16) := by decide +kernel

/-- V16h: by (2, 3). -/
theorem test_scroll_both : fbOf (exec (.scroll 2 3) (st (tcfg 8 16 .reg) [0x01, 0x02, 0x04, 0x08, 0x10, 0x20, 0x40, 0x80, 0xFF, 0x00, 0x00, 0x00, 0x00, 0x00, 0x00, 0x81] [])) =
    some [0x00, 0x00, 0x08, 0x10, 0x20, 0x40, 0x80, 0x00, 0x00, 0x00, 0xF8, 0x00, 0x00, 0x00, 0x00, 0x01] := by decide +kernel

/-- V16i: by (-3, -9). -/
theorem test_scroll_negative : fbOf (exec (.scroll (-3) (-9)) (st (tcfg 8 16 .reg) [0x01, 0x02, 0x04, 0x08, 0x10, 0x20, 0x40, 0x80, 0xFF, 0x00, 0x00, 0x00, 0x00, 0x00, 0x00, 0x81] [])) =
    some [0x00, 0x00, 0x00, 0x00, 0x40, 0x00, 0x00, 0x00, 0x00, 0x00, 0x00, 0x00, 0x00, 0x00, 0x00, 0x00] := by decide +kernel

/-! ### The serializer: V1 to V9 -/

/-- V6 on CS. -/
theorem test_pwron_cs : after (exec .pwron (st (tcfg 4 8 .cs) (zeros 4) [])) (fun s => (s.trace, s.res, s.life)) =
    some ([.sigRes 1, .delay 1000, .sigRes 0, .delay 10000, .sigRes 1], 1, .powered) := by decide +kernel

/-- V6 on REG. -/
theorem test_pwron_reg : after (exec .pwron (st (tcfg 4 8 .reg) (zeros 4) [])) (fun s => (s.trace, s.life, s.rsp)) = some ([], .powered, some .ok) := by decide +kernel

/-- The last bytes of the register transactions of a trace. -/
def cmdBytesOf (t : List Event) : List Byte :=
  t.flatMap fun e => match e with
    | .regTxn _ [_, b] => [b]
    | _ => []

/-- V1, V2: the 25 bytes for H = 64, then the window of W = 8 (R162, R163). -/
theorem test_init_bytes : after (exec .init (st (tcfg 8 64 .reg) (ones 64) (List.replicate 32 .done))) (fun s => (cmdBytesOf s.trace, s.life, s.temp0, s.temp1)) =
    some ([0xAE, 0x20, 0x00, 0x40, 0xA1, 0xA8, 0x3F, 0xC8, 0xD3, 0x00, 0xDA, 0x12, 0xD5, 0x80, 0xD9, 0xF1, 0xDB, 0x30, 0x81, 0xFF, 0xA4, 0xA6, 0x8D, 0x14, 0xAF, 0x21, 0x00, 0x07, 0x22, 0x00, 0x07], .on, 0x80, 0x07) := by decide +kernel

/-- V9 c: 25 answers Done, then Fail: cleared, not ON. -/
theorem test_init_fails_late : after (exec .init (st (tcfg 4 8 .reg) (ones 4) (List.replicate 25 .done ++ [.fail]))) (fun s => (s.trace.length, s.fbBytes, s.life, s.rsp, s.busErr)) =
    some (26, zeros 4, .reset, some .busFailure, true) := by decide +kernel

/-- V5's shape on CS, W = 64: 35 events, DC = 1 and chip select released at the end. -/
theorem test_show_cs : after (exec .showFrame (st (tcfg 64 8 .cs) (ones 64) (List.replicate 7 .done))) (fun s => ((s.trace.length, s.dc, s.csel), [s.trace[8]?, s.trace[13]?, s.trace[33]?])) =
    some ((35, 1, .deasserted), [some (.csBytes [0x20]), some (.csBytes [0x5F]), some (.csBytes (ones 64))]) := by decide +kernel

/-- V9 a: Done, Done, Fail on REG, W = 128, H = 64. -/
theorem test_show_fails : after (exec .showFrame (st (tcfg 128 64 .reg) [] [.done, .done, .fail])) (fun s => (cmdBytesOf s.trace, s.rsp, s.busErr, s.ph)) =
    some ([0x21, 0x00, 0x7F], some .busFailure, true, .idle) := by decide +kernel

/-- V7. -/
theorem test_contrast : after (exec (.contrast 0x40) (st (tcfg 4 8 .reg) (zeros 4) [.done, .done])) (fun s => s.trace) =
    some [.regTxn 0x3C [0x80, 0x81], .regTxn 0x3C [0x80, 0x40]] := by decide +kernel

/-- V9 g: on CS the frame is complete although the answer is Fail. -/
theorem test_invert_fails_cs : after (exec (.invert 1) (st (tcfg 4 8 .cs) (zeros 4) [.fail])) (fun s => (s.trace, s.rsp)) =
    some ([.clkCfg ⟨10000000, true, true⟩, .sigDc 0, .sigCsel .asserted, .csBytes [0xA7], .sigCsel .deasserted], some .busFailure) := by decide +kernel

/-- V7. -/
theorem test_pwroff : after (exec .pwroff (st (tcfg 4 8 .reg) (zeros 4) [.done])) (fun s => (s.trace, s.life)) = some ([.regTxn 0x3C [0x80, 0xAE]], .sleep) := by decide +kernel

/-- V9 e: LIFE stays. -/
theorem test_pwroff_fails : after (exec .pwroff { st (tcfg 4 8 .reg) (zeros 4) [.fail] with life := .on }) (fun s => (s.life, s.rsp)) = some (.on, some .busFailure) := by decide +kernel

/-- V9 h: the first answer never comes. -/
theorem test_show_hangs : after (exec .showFrame (st (tcfg 128 64 .reg) [] [])) (fun s => (s.trace, s.busy, s.rsp)) = some ([.regTxn 0x3C [0x80, 0x21]], true, none) := by decide +kernel

/-! ### The rasterizer: V20 to V39 -/

/-- V31. -/
theorem test_glyphs_clipped : fbOf (exec (.glyphs 0x31 (-2) (-1) 1 1) (st (tcfg 8 8 .reg) (zeros 8) [])) = some [0x21, 0x3F, 0x3F, 0x20, 0x20, 0x00, 0x00, 0x00] := by decide +kernel

/-- V37: an absent glyph paints nothing, even with colour 0. -/
theorem test_glyphs_absent : fbOf (exec (.glyphs 0x5A 0 0 0 2) (st (tcfg 16 16 .reg) (ones 32) [])) = some (ones 32) := by decide +kernel

/-- V20: "12.3" under the formula layout. -/
theorem test_texts_v20 : fbOf (exec (.texts [0x31, 0x32, 0x2E, 0x33] 0 0) (st (tcfg 64 16 .reg) (zeros 128) [])) = some
    ([0x00, 0x00, 0x00, 0x00, 0x0C, 0x0C, 0xFF, 0xFF, 0xFF, 0xFF, 0x00, 0x00, 0x00, 0x00, 0x00, 0x00]
      ++ [0x00, 0x00, 0x0C, 0x0C, 0x0F, 0x0F, 0x03, 0x03, 0xC3, 0xC3, 0xFF, 0xFF, 0x3C, 0x3C, 0x00, 0x00]
      ++ [0x00, 0x00, 0x00, 0x00, 0x00, 0x00, 0x00, 0x00, 0x00, 0x00, 0x00, 0x00, 0x0C, 0x0C, 0x0F, 0x0F]
      ++ [0xC3, 0xC3, 0xC3, 0xC3, 0xFF, 0xFF, 0x3C, 0x3C, 0x00, 0x00, 0x00, 0x00, 0x00, 0x00, 0x00, 0x00]
      ++ [0x00, 0x00, 0x30, 0x30, 0x30, 0x30, 0x3F, 0x3F, 0x3F, 0x3F, 0x30, 0x30, 0x30, 0x30, 0x00, 0x00]
      ++ [0x00, 0x00, 0x3C, 0x3C, 0x3F, 0x3F, 0xF3, 0xF3, 0xF0, 0xF0, 0x30, 0x30, 0x30, 0x30, 0x00, 0x00]
      ++ [0x00, 0x00, 0x00, 0x00, 0x00, 0x00, 0x00, 0x00, 0x00, 0x00, 0x00, 0x00, 0x0C, 0x0C, 0x3C, 0x3C]
      ++ [0x30, 0x30, 0x30, 0x30, 0x3F, 0x3F, 0x0F, 0x0F, 0x00, 0x00, 0x00, 0x00, 0x00, 0x00, 0x00, 0x00]) := by decide +kernel

/-- V22: ".5" on 32x16, the point wholly clipped. -/
theorem test_texts_leading_dot : fbOf (exec (.texts [0x2E, 0x35] 0 0) (st (tcfg 32 16 .reg) (zeros 64) [])) = some
    (zeros 18 ++ [0x3F, 0x3F, 0x3F, 0x3F, 0x33, 0x33, 0x33, 0x33, 0xF3, 0xF3, 0xC3, 0xC3, 0x00, 0x00]
      ++ zeros 18 ++ [0x0C, 0x0C, 0x3C, 0x3C, 0x30, 0x30, 0x30, 0x30, 0x3F, 0x3F, 0x0F, 0x0F, 0x00, 0x00]) := by decide +kernel

/-- V24: "A A" straddles the pages, the last A is clipped. -/
theorem test_text_v24 : fbOf (exec (.text [0x41, 0x20, 0x41] 1 4 1) (st (tcfg 16 16 .reg) (zeros 32) [])) = some
    ([0x00, 0x00, 0xE0, 0xF0, 0x90, 0x90, 0xF0, 0xE0, 0x00, 0x00, 0x00, 0x00, 0x00, 0x00, 0x00, 0x00]
      ++ [0x00, 0x00, 0x07, 0x07, 0x00, 0x00, 0x07, 0x07, 0x00, 0x00, 0x00, 0x00, 0x00, 0x00, 0x00, 0x00]) := by decide +kernel

/-! ### The informative receiver (R146) -/

/-- What a SHOW sends lands at columns 32 + x on a 64-wide panel (R58). -/
theorem test_receiver_show : (after (exec .showFrame (st (tcfg 64 8 .cs) ((zeros 63) ++ [0x5A]) (List.replicate 7 .done))) (fun s =>
    Memory.read (Rx.run s.cfg s.trace { (default : Rx) with held := false }).ram (rxCell 0 95))) = some (some 0x5A) := by decide +kernel

/-- R146: bit 6 of the byte of page 1 is the pixel of row 8 + 6; a cell nothing was stored in shows no pixel. -/
theorem test_receiver_pixel :
    let rx : Rx := { (default : Rx) with ram := [(rxCell 1 5, 0x40)] }
    (rx.pixel 5 14, rx.pixel 5 13, rx.pixel 6 14) = (some 1, some 0, none) := by decide +kernel

/-- R146: past its window's end only the pointers are open; the byte is stored and the contrast stays. -/
theorem test_receiver_past_window :
    let rx : Rx := { (default : Rx) with mode := 0, colFirst := 33, colLast := 0, col := 33, page := 2, ram := [], contrast := 7 }
    ((rx.dataByte Opc.std 0x5A).ram, (rx.dataByte Opc.std 0x5A).contrast) = ([(rxCell 2 33, 0x5A)], 7) := by decide +kernel

/-! ### Witnesses: states and operands that meet the hypotheses of the obligations, at the ends of their ranges -/

/-- The operation ran: it answered a next state. -/
def ran (o : Host.Outcome State Fault Refusal) : Bool := (after o fun _ => ()).isSome

/-- An answer that is a next state gives that state. -/
theorem next_of_ran {o : Host.Outcome State Fault Refusal} (h : ran o = true) : ∃ t, o = .next t := by
  cases o with
  | next s => exact ⟨s, rfl⟩
  | fault f => cases h
  | refused r => cases h

/-- A GLYPH table that meets R25, and a configuration with it. -/
def gcfg : Cfg := { Cfg.initial with glyph := (0x20, blankRows) :: requiredChars.map fun ch => (ch, blankRows) }

/-- The reset state in EXEC with a packet that has just arrived. -/
def held (pkt : List Byte) (bus : List Reply) : State := { State.reset with ph := .exec, pkt := pkt, bus := bus }

/-- A configuration with a bus timeout. -/
def tcfgTimeout : Cfg := { tcfg 8 8 .cs with busTimeout := some 1000 }

/-- So many answers `Done`. -/
def dones (n : Nat) : List Reply := List.replicate n .done

theorem witness_HostPacketRoundTrip :
    (Instr.texts (ones 255) (BitVec.ofInt 16 (-32768)) 32767).isHost = true ∧
    (Instr.texts (ones 255) (BitVec.ofInt 16 (-32768)) 32767).wellFormed = true := by decide +kernel

theorem witness_CommandRoundTrip : (Instr.setStartLine 63).isHost = false ∧ (Instr.setPageAddr 0 255).isHost = false := by
  decide +kernel

theorem witness_PacketLengthsAreTheTable : parsePacket [0x10] = .complete .pwron [] ∧
    (parsePacket (0x22 :: zeros 5 ++ 0xFF :: zeros 255)).instr? = some (.text (zeros 255) 0 0 0) := by decide +kernel

/-- A string of no characters ends at its length byte. -/
theorem witness_PacketEndsAtItsLastByte :
    parsePacket (0x21 :: zeros 4) = .incomplete ∧ parsePacket (0x21 :: zeros 4 ++ [0]) = .complete (.texts [] 0 0) [] ∧
    parsePacket [0x01] = .incomplete ∧ parsePacket ([0x01] ++ [1]) = .complete (.fill 1) [] := by decide +kernel

theorem witness_ReservedOpcodeLatchesFault : State.reset.cfg.legal = true ∧ State.reset.ph = .idle ∧
    State.reset.pkt = [] ∧ (∀ b ∈ [0x00, 0x04, 0x0F, 0x16, 0x1F, 0x23, 0xFF], b ∉ hostOpcodes) := by decide +kernel

theorem witness_ReservedOpcodeLatchesFault_after : ∃ t, step { State.reset with ph := .fault, host := [.send 0x01] } = .next t :=
  ⟨_, rfl⟩

theorem witness_ReservedBitLatchesFault : State.reset.cfg.legal = true ∧ (0x02 : Byte) ≠ 0x00 ∧ (0x02 : Byte) ≠ 0x01 ∧
    ((0xFF : Byte) ≠ 0x00 ∧ (0xFF : Byte) ≠ 0x01) ∧
    ([[0x01], [0x14], 0x02 :: ones 4, 0x20 :: ones 5, 0x22 :: ones 4].map parsePacket = List.replicate 5 .incomplete) := by
  decide +kernel

theorem witness_BytesMoveThePhase : parsePacket (State.reset.pkt ++ [0x02]) = .incomplete ∧
    parsePacket (State.reset.pkt ++ [0x10]) = .complete .pwron [] ∧
    parsePacket ([0x02, 0, 0, 0, 0] ++ [1]) = .complete (.setpx 0 0 1) [] ∧ parsePacket ([0x02] ++ [0]) = .incomplete := by
  decide +kernel

theorem witness_StepRunsTheDecodedInstruction : (held [0x12] []).cfg.legal = true ∧ (held [0x12] []).wait = none ∧
    (held [0x12] []).host = [] ∧ ({ held [0x12] [] with host := [.pause, .read 0] } : State).host = .pause :: [.read 0] ∧
    ({ held [0x12] [] with host := [.send 1] } : State).host = .send 1 :: [] ∧ parsePacket (held [0x12] []).pkt = .complete .showFrame [] ∧
    parseWire State.reset.cfg.opc [0xA7] = .complete (.setNormInv 1) [] := by decide +kernel

theorem witness_ByteWaitsWhileExecuting : ∃ t, step { held [0x10] [] with host := [.send 0x10] } = .next t :=
  next_of_ran (by decide +kernel)

theorem witness_FaultChangesNothingButTheReadPort : (∃ t, step { State.reset with ph := .fault, host := [.read 0] } = .next t) ∧
    (∃ t, step { State.reset with ph := .fault } = .next t) := ⟨⟨_, rfl⟩, ⟨_, rfl⟩⟩

theorem witness_ReadBackPortReadsWithoutSideEffect : State.reset.cfg.legal = true ∧ State.reset.ph ≠ .exec ∧
    1023 < State.reset.cfg.len ∧ State.reset.cfg.len ≤ 1024 ∧ (held [0x12] []).ph = .exec := by decide +kernel

theorem witness_ResetGivesTheResetValues :
    ({ held [0x12] [] with host := [.reset], wait := some (.sigDc 0), busErr := true } : State).cfg.legal = true := by
  decide +kernel

/-- The ends of R9's ranges: legal, and one past. -/
theorem witness_IllegalConfigurationIsRefused :
    ([(1, 8), (256, 256), (64, 8), (128, 64)].map fun p => (tcfg p.1 p.2 .reg).legal) = [true, true, true, true] ∧
    ([(0, 8), (257, 8), (8, 0), (8, 12), (8, 264)].map fun p => (tcfg p.1 p.2 .reg).legal) =
      [false, false, false, false, false] ∧
    ({ tcfg 8 8 .reg with ctrlData := 0x80 } : Cfg).legal = false := by decide +kernel

theorem witness_StepKeepsTheInvariant : (held [0x01, 0x01] []).Inv ∧ ∃ t, step (held [0x01, 0x01] []) = .next t :=
  ⟨{ fbSorted := by decide
     fbBelow := by decide
     packet := ⟨.fill 1, by decide⟩
     noWire := rfl
     noPen := rfl
     waiting := fun _ => rfl
     fresh := by decide }, next_of_ran (by decide +kernel)⟩

theorem witness_StepKeepsTheInvariant_collect :
    ({ State.reset with ph := .collect, pkt := [0x01], host := [.send 0x02] } : State).Inv :=
  { fbSorted := by decide
    fbBelow := by decide
    packet := ⟨by decide, by decide⟩
    noWire := rfl
    noPen := rfl
    waiting := by decide
    fresh := by decide }

theorem witness_StepKeepsTheBusInvariant : (held [0x15] [.done]).BusInv ∧ ∃ t, step (held [0x15] [.done]) = .next t :=
  ⟨{ answers := by decide
     regEvents := by decide
     regLines := by decide
     csEvents := by decide
     csClocks := by decide
     csReleased := by decide }, next_of_ran (by decide +kernel)⟩

theorem witness_StepKeepsTheBusInvariant_cs :
    ({ held [0x15] [.fail] with cfg := tcfg 8 8 .cs } : State).BusInv :=
  { answers := by decide
    regEvents := by decide
    regLines := by decide
    csEvents := by decide
    csClocks := by decide
    csReleased := fun _ _ => rfl }

theorem witness_ConfigurationNeverChanges : ∃ t, step { State.reset with host := [.reset] } = .next t :=
  next_of_ran (by decide +kernel)

theorem witness_BusErrIsSticky : (∃ t, step { held [0x10] [] with busErr := true } = .next t) ∧
    ∃ t, step { held [0x10] [] with busErr := true, host := [.reset] } = .next t :=
  ⟨next_of_ran (by decide +kernel), next_of_ran (by decide +kernel)⟩

theorem witness_TraceOnlyGrows : State.reset.cfg.busTimeout = none ∧
    (∃ t, exec (.invert 1) (held [] [.fail]) = .next t) ∧ (∃ t, exec (.invert 1) (held [] [.never, .done]) = .next t) ∧
    ({ held [] [] with cfg := tcfgTimeout } : State).cfg.busTimeout.isSome = true ∧
    (∃ t, exec (.invert 1) { held [] [] with cfg := tcfgTimeout } = .next t) :=
  ⟨rfl, next_of_ran (by decide +kernel), next_of_ran (by decide +kernel), rfl, next_of_ran (by decide +kernel)⟩

theorem witness_LifeMovesOnlyWhenItsOperationsSucceed :
    (after (exec .pwron State.reset) State.life, after (exec .init (held [] (dones 32))) State.life,
      after (exec .pwroff (held [] (dones 1))) State.life) = (some .powered, some .on, some .sleep) := by decide +kernel

theorem witness_LifeGuardsNothing : ∃ t, exec .showFrame { held [] (dones 7) with life := .sleep } = .next t :=
  next_of_ran (by decide +kernel)

theorem witness_EveryInstructionEndsOneOfThreeWays :
    (after (exec (.invert 1) (held [] (dones 1))) State.rsp, after (exec (.invert 1) (held [] [.fail])) State.rsp,
      after (exec (.invert 1) (held [] [])) State.rsp) = (some (some .ok), some (some .busFailure), some none) := by
  decide +kernel

theorem witness_DrawingFrame : isDrawing (.text [0x41] 0 0 1) = true ∧ isDrawing (.fill 1) = true := by decide +kernel

theorem witness_DrawingStaysInsideTheFramebuffer : (held [0x01, 0x01] []).Inv ∧ (held [0x01, 0x01] []).cfg.legal = true ∧
    ∃ t, exec (.setpx 127 63 1) (held [0x01, 0x01] []) = .next t :=
  ⟨witness_StepKeepsTheInvariant.1, by decide +kernel, next_of_ran (by decide +kernel)⟩

/-- The corners of the panel are in range, their neighbours outside are not (FILL, SETPX, SCROLL, GLYPHS, TEXTS, TEXT). -/
theorem witness_inRange_corners : Cfg.initial.legal = true ∧
    ([(0, 0), (127, 0), (0, 63), (127, 63)].map fun p => inRange Cfg.initial p.1 p.2) = [true, true, true, true] ∧
    ([(-1, 0), (128, 0), (0, -1), (0, 64)].map fun p => inRange Cfg.initial p.1 p.2) = [false, false, false, false] := by
  decide +kernel

/-- SETPX at the last pixel writes bit 7 of the last byte. -/
theorem witness_SetPxWritesOneBit :
    fbOf (exec (.setpx 3 15 1) (st (tcfg 4 16 .reg) (zeros 8) [])) = some (zeros 7 ++ [0x80]) ∧
    fbOf (exec (.setpx (-1) 0 1) (st (tcfg 4 16 .reg) (zeros 8) [])) = some (zeros 8) ∧
    fbOf (exec (.setpx 0 16 1) (st (tcfg 4 16 .reg) (zeros 8) [])) = some (zeros 8) ∧
    fbOf (exec (.setpx 0 0 0) (st (tcfg 4 16 .reg) (ones 8) [])) = some (0xFE :: ones 7) := by decide +kernel

/-- SCROLL by nothing, by all but one column, by the width, by the height upwards. -/
theorem witness_ScrollMovesEveryPixel : (tcfg 4 8 .reg).legal = true ∧
    ([(0, 0), (3, 0), (4, 0), (0, -8), (0, -7)].map fun p => fbOf (exec (.scroll p.1 p.2) (st (tcfg 4 8 .reg) (ones 4) []))) =
      [some (ones 4), some [0, 0, 0, 0xFF], some (zeros 4), some (zeros 4), some [1, 1, 1, 1]] := by decide +kernel

/-- One block hit and one missed: row 0 of "1" is 18, columns 3 and 4. -/
theorem witness_GlyphsPaintsTheBlocksOfThePattern : inRange (tcfg 16 16 .reg) 6 0 = true ∧
    BlockHit (rowsDrawn (tcfg 16 16 .reg) 0x31) 0 0 2 6 0 ∧ ¬ BlockHit (rowsDrawn (tcfg 16 16 .reg) 0x31) 0 0 0 6 0 :=
  ⟨by decide +kernel, ⟨0, by decide, 3, by decide, 0, by decide, 0, by decide, by decide +kernel, rfl, rfl⟩,
    fun ⟨_, _, _, _, _, h, _⟩ => absurd h (Nat.not_lt_zero _)⟩

theorem witness_AbsentGlyphPaintsNothing : gcfg.glyphOk ∧ tableFind gcfg.glyph 0x21 = none ∧ gcfg.legal = true :=
  ⟨⟨by decide +kernel, by decide +kernel, by decide +kernel⟩, by decide +kernel, by decide +kernel⟩

/-- "1." puts the point at 16 - 6 - 6 = 4: its block of row 6 covers (6, 12). The empty string hits nothing. -/
theorem witness_TextsPaintsGlyphsAtTheFormulaPlaces : inRange (tcfg 16 16 .reg) 6 12 = true ∧
    (∃ i ch, [0x31, 0x2E][i]? = some ch ∧
      BlockHit (rowsDrawn (tcfg 16 16 .reg) ch) (0 + textsGlyphX (tcfg 16 16 .reg) [0x31, 0x2E] i) 0 2 6 12) ∧
    ¬ ∃ i ch, ([] : List Byte)[i]? = some ch ∧
      BlockHit (rowsDrawn (tcfg 16 16 .reg) ch) (0 + textsGlyphX (tcfg 16 16 .reg) [] i) 0 2 6 12 := by
  refine ⟨by decide +kernel, ⟨1, 0x2E, rfl, 6, by decide, 1, by decide, 0, by decide, 0, by decide, ?_, ?_, ?_⟩, ?_⟩
  · decide +kernel
  · decide +kernel
  · decide +kernel
  · simp

/-- The second "A": row 0 is 3C, column 2 at 8 + 2; column 0 is not set. -/
theorem witness_TextPaintsTheFontEightPixelsApart : inRange (tcfg 16 8 .reg) 10 0 = true ∧
    fontBit (tcfg 16 8 .reg) 0x41 2 0 = 1 ∧ fontBit (tcfg 16 8 .reg) 0x41 0 0 = 0 ∧ fontBit (tcfg 16 8 .reg) 0x20 0 0 = 0 ∧
    fbOf (exec (.text [0x41, 0x41] 0 0 1) (st (tcfg 16 8 .reg) (zeros 16) [])) =
      some [0, 0x7E, 0x7F, 0x09, 0x09, 0x7F, 0x7E, 0, 0, 0x7E, 0x7F, 0x09, 0x09, 0x7F, 0x7E, 0] := by decide +kernel

/-- Two framebuffers that differ; only drawing operations after the FILL. -/
theorem witness_DrawingIsDeterministicFromFill :
    (st (tcfg 8 8 .reg) (zeros 8) []).cfg = (st (tcfg 8 8 .reg) (ones 8) []).cfg ∧
    (st (tcfg 8 8 .reg) (zeros 8) []).fb ≠ (st (tcfg 8 8 .reg) (ones 8) []).fb ∧ (tcfg 8 8 .reg).legal = true ∧
    ∀ i ∈ [Instr.scroll 1 1, .setpx 0 0 1, .glyphs 0x31 0 0 1 1], isDrawing i = true :=
  ⟨rfl, by decide +kernel, by decide +kernel, by decide +kernel⟩

/-- Both transports; H = 32 and H = 64, with and without external supply. -/
theorem witness_InitTableIsTheSpecTable :
    (tcfg 128 64 .reg).opc = Opc.std ∧ (tcfg 128 64 .reg).h = 64 ∧ (tcfg 128 64 .reg).extVcc = false ∧
    ((initBytes { tcfg 128 32 .cs with extVcc := true })[11]?, (initBytes { tcfg 128 32 .cs with extVcc := true })[15]?,
      (initBytes { tcfg 128 32 .cs with extVcc := true })[23]?) = (some 0x02, some 0x22, some 0x10) := by decide +kernel

theorem witness_answers (r : List Reply) (n : Nat) :
    (held [] (dones n ++ r)).bus = List.replicate n .done ++ r ∧
    (held [] (dones n ++ .fail :: r)).bus = List.replicate n .done ++ .fail :: r := ⟨rfl, rfl⟩

/-- Failures at the ends of the two clauses of InitFailureClearsOnlyAfterTheTable: 0, 24 and 25, 31. -/
theorem witness_InitFailureClearsOnlyAfterTheTable :
    ([0, 24, 25, 31].map fun k =>
      fbOf (exec .init (st (tcfg 2 8 .reg) (ones 2) (dones k ++ [.fail])))) =
    [some (ones 2), some (ones 2), some (zeros 2), some (zeros 2)] := by decide +kernel

theorem witness_ShowSendsTheWindowAndTheFramebuffer :
    ([dones 7, dones 6 ++ [.fail], [.fail]].map fun b => after (exec .showFrame (st (tcfg 2 8 .cs) (ones 2) b)) State.rsp) =
    [some (some .ok), some (some .busFailure), some (some .busFailure)] := by decide +kernel

/-- Drawing and SHOW run in any LIFE (second half of PwroffSendsDisplayOff). -/
theorem witness_PwroffSendsDisplayOff : isDrawing (.fill 0) = true ∧
    (∃ t, exec (.fill 0) { held [] [] with life := .on } = .next t) ∧
    ∃ t, exec .showFrame { held [] (dones 7) with life := .on } = .next t :=
  ⟨rfl, next_of_ran (by decide +kernel), next_of_ran (by decide +kernel)⟩

/-- The rows of R91 at field values that use every bit: one byte with a field, two bytes, three bytes. -/
theorem witness_CommandsSendTheirTableBytes : CommandRow Opc.std (.setStartLine 63) [0x7F] ∧
    CommandRow Opc.std (.setComOutDir 1) [0xC8] ∧ CommandRow Opc.std (.setContrast 0xFF) [0x81, 0xFF] ∧
    CommandRow Opc.std (.setPageAddr 0 255) [0x22, 0, 255] :=
  ⟨.setStartLine 63, .setComOutDir 1, .setContrast 0xFF, .setPageAddr 0 255⟩

theorem witness_RegCommandWritesTemp : (tcfg 8 8 .reg).transport = .reg ∧ (tcfg 8 8 .cs).transport = .cs := ⟨rfl, rfl⟩

theorem witness_SerializerFrame : (Instr.setEntireOn).isHost = false ∧
    (∃ t, exec .setEntireOn (held [] (dones 1)) = .next t) ∧ (∃ t, exec .showFrame (held [] (dones 7)) = .next t) ∧
    (∃ t, exec (.contrast 0) (held [] [.fail]) = .next t) ∧ ∃ t, exec .init (held [] (dones 32)) = .next t :=
  ⟨rfl, next_of_ran (by decide +kernel), next_of_ran (by decide +kernel), next_of_ran (by decide +kernel),
    next_of_ran (by decide +kernel)⟩

/-- The first and the last transaction of INIT, and the only one of INVERT. -/
theorem witness_FailStopsTheOperationThere :
    ([(Instr.init, 0), (.init, 31), (.showFrame, 6), (.invert 1, 0)].map fun p =>
      let s := st (tcfg 2 8 .cs) (zeros 2) (dones p.2 ++ [.fail])
      decide (p.2 < (txnsOf s.cfg s.fbBytes p.1).length) && decide (s.bus = List.replicate p.2 .done ++ .fail :: [])) =
    [true, true, true, true] := by decide +kernel

theorem witness_UnansweredTransactionHangsTheOperation :
    (st (tcfg 2 8 .reg) [1, 2] (dones 6 ++ [.never, .done])).cfg.busTimeout = none ∧
    (txnsOf (tcfg 2 8 .reg) (st (tcfg 2 8 .reg) [1, 2] []).fbBytes .showFrame)[6]? = some [.regTxn 0x3C [0x40, 1, 2]] ∧
    (st (tcfg 2 8 .reg) [1, 2] (dones 6 ++ [.never, .done])).bus = List.replicate 6 .done ++ [.never, .done] ∧
    (txnsOf (tcfg 2 8 .reg) (st (tcfg 2 8 .reg) [1, 2] []).fbBytes .showFrame)[0]? = some [.regTxn 0x3C [0x80, 0x21]] ∧
    (st (tcfg 2 8 .reg) [1, 2] []).bus = List.replicate 0 .done ++ [] := by decide +kernel

/-- Both ways a transaction is never answered. -/
theorem witness_NeverAnswered : NeverAnswered [.never, .done] [.done] ∧ NeverAnswered [] [] :=
  ⟨.inl rfl, .inr ⟨rfl, rfl⟩⟩

theorem witness_HungPsdcWaitsUntilReset :
    ({ held [0x12] [] with wait := some (.regTxn 0x3C [0x80, 0x21]) } : State).cfg.legal = true ∧
    ({ held [0x12] [] with wait := some (.regTxn 0x3C [0x80, 0x21]) } : State).ph = .exec ∧
    ({ held [0x12] [] with wait := some (.regTxn 0x3C [0x80, 0x21]) } : State).wait.isSome = true := by decide +kernel

theorem witness_TimeoutReportsFail : (st tcfgTimeout [] (dones 6 ++ [.never])).cfg.busTimeout = some 1000 ∧
    (st tcfgTimeout [] (dones 6 ++ [.never])).bus = List.replicate 6 .done ++ [.never] ∧
    6 < (txnsOf tcfgTimeout (st tcfgTimeout [] []).fbBytes .showFrame).length ∧
    0 < (txnsOf tcfgTimeout (st tcfgTimeout [] []).fbBytes (.invert 1)).length ∧
    (st tcfgTimeout [] []).bus = List.replicate 0 .done ++ [] := by decide +kernel

/-- A receiver in horizontal mode, out of reset, nothing half sent. -/
def rx0 : Rx := { (default : Rx) with mode := 0x00, pending := [], held := false }

/-- The receiver claims on the largest 64-wide panel: SHOW answered, SHOW whose stream fails, INIT answered. -/
theorem witness_ShowFillsTheControllerWindow :
    (st (tcfg 64 256 .cs) [] (dones 7)).cfg.legal = true ∧ (st (tcfg 64 256 .cs) [] (dones 7)).cfg.opc = Opc.std ∧
    rx0.mode = (st (tcfg 64 256 .cs) [] (dones 7)).cfg.opc.modeHorizontal ∧ rx0.pending = [] ∧ rx0.held = false ∧
    (st (tcfg 64 256 .cs) [] (dones 7)).bus = List.replicate 7 .done ++ [] ∧
    31 < (tcfg 64 256 .cs).pages ∧ 63 < (tcfg 64 256 .cs).w ∧ 255 < (tcfg 64 256 .cs).h := by decide +kernel

theorem witness_FailedShowLeavesEachCellOldOrNew :
    (st (tcfg 256 8 .reg) [] (dones 6 ++ [.fail])).cfg.legal = true ∧ (st (tcfg 256 8 .reg) [] []).cfg.opc = Opc.std ∧
    rx0.mode = (tcfg 256 8 .reg).opc.modeHorizontal ∧ rx0.pending = [] ∧ rx0.held = false ∧
    (st (tcfg 256 8 .reg) [] (dones 6 ++ [.fail])).bus = List.replicate 6 .done ++ .fail :: [] ∧
    255 < (tcfg 256 8 .reg).w := by decide +kernel

theorem witness_InitConfiguresTheController :
    (st (tcfg 128 64 .reg) [] (dones 32)).cfg.legal = true ∧ (st (tcfg 128 64 .reg) [] (dones 32)).cfg.opc = Opc.std ∧
    rx0.pending = [] ∧ rx0.held = false ∧ (st (tcfg 128 64 .reg) [] (dones 32)).bus = List.replicate 32 .done ++ [] := by
  decide +kernel

theorem witness_PwronReturnsTheControllerToPowerOn : (st (tcfg 8 8 .cs) [] []).cfg.transport = .cs := rfl

theorem witness_PwronPulsesResetOnCs :
    (st (tcfg 8 8 .reg) [] []).cfg.transport = .reg ∧ (st (tcfg 8 8 .cs) [] []).cfg.transport = .cs := ⟨rfl, rfl⟩

theorem witness_QuietHostLeavesIdleAlone :
    State.reset.cfg.legal = true ∧ State.reset.ph ≠ .exec ∧ State.reset.host = [] := by decide +kernel

/-- The last byte of the framebuffer and the last pixel. -/
theorem witness_FillSetsEveryPixel : 1023 < State.reset.cfg.len ∧ ¬ 1024 < State.reset.cfg.len ∧
    State.reset.cfg.legal = true ∧ inRange State.reset.cfg 127 63 = true := by decide +kernel

theorem witness_SetpxSetsOnePixel : inRange State.reset.cfg 127 63 = true ∧
    inRange State.reset.cfg (BitVec.toInt (128 : S16)) (BitVec.toInt (63 : S16)) = false := by decide +kernel

theorem witness_InitSendsTheTableClearsAndFlushes : (held [0x11] (dones 33)).bus = List.replicate 32 .done ++ [.done] := rfl

theorem witness_ContrastSendsTwoCommands : (held [] [.done, .done]).bus = .done :: .done :: [] ∧
    (held [] [.fail]).bus = .fail :: [] ∧ (held [] [.done, .fail]).bus = .done :: .fail :: [] := ⟨rfl, rfl, rfl⟩

theorem witness_InvertSendsOneCommand : (held [] [.done]).bus = .done :: [] ∧ (held [] [.fail]).bus = .fail :: [] := ⟨rfl, rfl⟩

/-- Framebuffers that agree below LEN = 1 and differ at 1. -/
theorem witness_InstructionsReadOnlyInsideTheFramebuffer : (tcfg 1 8 .reg).legal = true ∧
    (st (tcfg 1 8 .reg) [7, 8] []) = { st (tcfg 1 8 .reg) [7, 9] [] with fb := (st (tcfg 1 8 .reg) [7, 8] []).fb } ∧
    (∀ k < (tcfg 1 8 .reg).len, (st (tcfg 1 8 .reg) [7, 8] []).fbRead k = (st (tcfg 1 8 .reg) [7, 9] []).fbRead k) ∧
    ∃ t, exec .showFrame (st (tcfg 1 8 .reg) [7, 9] []) = .next t :=
  ⟨by decide +kernel, rfl, by decide +kernel, next_of_ran (by decide +kernel)⟩

/-- Both answers to the data transaction, of SHOW and of INIT, on both transports. -/
theorem witness_DataSetsTheLinesAndLeavesTemp :
    (st (tcfg 2 8 .cs) [] (dones 6 ++ [.fail])).bus = List.replicate 6 .done ++ Answer.fail.reply :: [] ∧
    (st (tcfg 2 8 .reg) [] (dones 31 ++ [.done])).bus = List.replicate 31 .done ++ Answer.done.reply :: [] ∧
    (tcfg 2 8 .cs).transport = .cs ∧ (tcfg 2 8 .reg).transport = .reg := by decide +kernel

theorem witness_InitFrame : (∃ t, exec .init (held [] (dones 32)) = .next t) ∧ ∃ t, exec .init (held [] [.fail]) = .next t :=
  ⟨next_of_ran (by decide +kernel), next_of_ran (by decide +kernel)⟩

end Sys2Proof.Tests
end

section
/-! PROOFS. The obligations of 00_scope.md: first the rules they share (packets, ends of an operation, transactions),
then the invariants and the claims. -/
namespace Sys2Proof.Machine

/-! ### A packet ends at its last byte (R86) -/

/-- A decoder of bytes that completes at the earliest byte it can, so that the byte that completes it leaves nothing
over (R86). -/
structure EndsAtLastByte (P : List Byte → Parse) : Prop where
  empty : ∀ (i : Instr) (rest : List Byte), P [] = .complete i rest → rest = []
  last : ∀ (p : List Byte) (b : Byte) (i : Instr) (rest : List Byte),
    P p = .incomplete → P (p ++ [b]) = .complete i rest → rest = []

namespace EndsAtLastByte

/-- A decoder that completes on any bytes is never waiting for its last byte. -/
theorem complete (k : List Byte → Instr) : EndsAtLastByte fun r => .complete (k r) r where
  empty _ _ h := by injection h with _ h; exact h.symm
  last _ _ _ _ h _ := nomatch h

theorem illegal (e : Reject) : EndsAtLastByte fun _ => .illegal e where
  empty _ _ h := nomatch h
  last _ _ _ _ h _ := nomatch h

/-- A decoder that needs a byte: it is enough to look at it after each possible first byte. -/
theorem cons {P : List Byte → Parse} (needs : P [] = .incomplete)
    (later : ∀ a, EndsAtLastByte fun r => P (a :: r)) : EndsAtLastByte P where
  empty i rest h := by rw [needs] at h; exact nomatch h
  last
    | [], b, i, rest, _, h => (later b).empty i rest h
    | a :: p, b, i, rest, hp, h => (later a).last p b i rest hp h

theorem ite {c : Prop} [Decidable c] {P Q : List Byte → Parse} (hP : EndsAtLastByte P) (hQ : EndsAtLastByte Q) :
    EndsAtLastByte fun r => if c then P r else Q r := by
  by_cases hc : c
  · simpa only [if_pos hc] using hP
  · simpa only [if_neg hc] using hQ

theorem withBit (b : Byte) {K : Bit → List Byte → Parse} (hK : ∀ v, EndsAtLastByte (K v)) :
    EndsAtLastByte fun r => withBit b fun v => K v r :=
  .ite (hK 0#1) (.ite (hK 1#1) (.illegal _))

/-- The characters of a string operand of length `n` (R82). -/
theorem chars (n : Nat) (k : List Byte → Instr) :
    EndsAtLastByte fun r => if r.length < n then .incomplete else .complete (k (r.take n)) (r.drop n) where
  empty i rest h := by
    split at h
    · exact nomatch h
    · injection h with _ h; rw [← h, List.drop_nil]
  last p b i rest hp h := by
    have short : p.length < n := by
      by_contra hc
      rw [if_neg hc] at hp
      exact nomatch hp
    split at h
    · exact nomatch h
    · injection h with _ h
      rw [← h]
      exact List.drop_eq_nil_of_le (by rw [List.length_append, List.length_singleton]; omega)

theorem fill : EndsAtLastByte parseFill :=
  .cons rfl fun c => .withBit c fun v => .complete fun _ => .fill v

theorem setpx : EndsAtLastByte parseSetpx :=
  .cons rfl fun x0 => .cons rfl fun x1 => .cons rfl fun y0 => .cons rfl fun y1 => .cons rfl fun c =>
    .withBit c fun v => .complete fun _ => .setpx (s16 x0 x1) (s16 y0 y1) v

theorem scroll : EndsAtLastByte parseScroll :=
  .cons rfl fun x0 => .cons rfl fun x1 => .cons rfl fun y0 => .cons rfl fun y1 =>
    .complete fun _ => .scroll (s16 x0 x1) (s16 y0 y1)

theorem contrast : EndsAtLastByte parseContrast := .cons rfl fun v => .complete fun _ => .contrast v

theorem invert : EndsAtLastByte parseInvert :=
  .cons rfl fun b => .withBit b fun v => .complete fun _ => .invert v

theorem glyphs : EndsAtLastByte parseGlyphs := by
  refine .cons rfl fun ch => .cons rfl fun x0 => .cons rfl fun x1 => .cons rfl fun y0 => .cons rfl fun y1 =>
    .cons rfl fun c => ?_
  simp only [parseGlyphs]
  exact .withBit c fun v => .cons rfl fun sc => .complete fun _ => .glyphs ch (s16 x0 x1) (s16 y0 y1) v sc

theorem texts : EndsAtLastByte parseTexts :=
  .cons rfl fun x0 => .cons rfl fun x1 => .cons rfl fun y0 => .cons rfl fun y1 => .cons rfl fun n =>
    .chars n.toNat fun t => .texts t (s16 x0 x1) (s16 y0 y1)

theorem text : EndsAtLastByte parseText := by
  refine .cons rfl fun x0 => .cons rfl fun x1 => .cons rfl fun y0 => .cons rfl fun y1 => .cons rfl fun c => ?_
  simp only [parseText]
  exact .withBit c fun v => .cons rfl fun n => .chars n.toNat fun t => .text t (s16 x0 x1) (s16 y0 y1) v

end EndsAtLastByte

/-- The byte that completes a host packet leaves nothing over (R86). -/
theorem parsePacket_endsAtLastByte : EndsAtLastByte parsePacket :=
  .cons rfl fun _ =>
    .ite .fill <| .ite .setpx <| .ite .scroll <|
    .ite (.complete fun _ => .pwron) <| .ite (.complete fun _ => .init) <| .ite (.complete fun _ => .showFrame) <|
    .ite .contrast <| .ite .invert <| .ite (.complete fun _ => .pwroff) <|
    .ite .glyphs <| .ite .texts <| .ite .text <| .illegal _

/-! ### How an operation ends -/

/-- Every instruction answers a next state. -/
theorem exec_eq_next (i : Instr) (s : State) : exec i s = .next (bodyOf i s).next := by
  rw [exec_eq_finish, Run.finish_eq]

/-- The state after an instruction is the end of its body. -/
theorem next_of_exec {i : Instr} {s t : State} (h : exec i s = .next t) : t = (bodyOf i s).next := by
  rw [exec_eq_next] at h
  injection h with h
  exact h.symm

@[simp] theorem Run.next_cfg (r : Run) : r.next.cfg = r.state.cfg := by cases r <;> rfl
@[simp] theorem Run.next_fb (r : Run) : r.next.fb = r.state.fb := by cases r <;> rfl
@[simp] theorem Run.next_fbDraw (r : Run) : r.next.fbDraw = r.state.fbDraw := by cases r <;> rfl
@[simp] theorem Run.next_pen (r : Run) : r.next.pen = r.state.pen := by cases r <;> rfl
@[simp] theorem Run.next_trace (r : Run) : r.next.trace = r.state.trace := by cases r <;> rfl
@[simp] theorem Run.next_drawn (r : Run) : r.next.drawn = r.state.drawn := by cases r <;> rfl
@[simp] theorem Run.next_bus (r : Run) : r.next.bus = r.state.bus := by cases r <;> rfl
@[simp] theorem Run.next_wait (r : Run) : r.next.wait = r.state.wait := by cases r <;> rfl
@[simp] theorem Run.next_draws (r : Run) : r.next.draws = r.state.draws := by cases r <;> rfl

/-! ### Pieces of an operation one after another -/

/-- Only the framebuffer, the pen and the lifecycle mirror have changed: nothing the bus can see. -/
def State.Quiet (s t : State) : Prop := t = { s with fb := t.fb, pen := t.pen, life := t.life }

theorem State.Quiet.of_only_fb {s t : State} (h : t = { s with fb := t.fb }) : s.Quiet t := by
  unfold State.Quiet
  rw [h]

/-- A relation between the transactions a piece of an operation makes, the state it starts from and what it comes to,
that holds of the pieces operations are made of and passes from pieces to their sequence (R60, R137). -/
structure Sequenced (R : List (List Event) → State → Run → Prop) : Prop where
  quiet {s t : State} : s.Quiet t → R [] s (.ok t)
  cmd (s : State) (b : Byte) : R [cmdEvents s.cfg b] s (s.cmd b)
  data (s : State) (bs : List Byte) : R [dataEvents s.cfg bs] s (s.data bs)
  next {gs hs : List (List Event)} {s t : State} {r : Run} : R gs s (.ok t) → R hs t r → R (gs ++ hs) s r
  failed {gs : List (List Event)} (hs : List (List Event)) {s t : State} :
    R gs s (.failed t) → R (gs ++ hs) s (.failed t)
  hung {gs : List (List Event)} (hs : List (List Event)) {s t : State} :
    R gs s (.hung t) → R (gs ++ hs) s (.hung t)

namespace Sequenced
variable {R : List (List Event) → State → Run → Prop} {gs hs : List (List Event)} {s : State} {r : Run}

theorem bind (hR : Sequenced R) {k : State → Run} (h : R gs s r) (hk : ∀ t, r = .ok t → R hs t (k t)) :
    R (gs ++ hs) s (r.bind k) := by
  cases r with
  | ok t => exact hR.next h (hk t rfl)
  | failed t => exact hR.failed hs h
  | hung t => exact hR.hung hs h

theorem andThen (hR : Sequenced R) {f : State → State} (h : R gs s r) (hf : ∀ t : State, t.Quiet (f t)) :
    R gs s (r.andThen f) := by
  cases r with
  | ok t => simpa using hR.next h (hR.quiet (hf t))
  | failed t => exact h
  | hung t => exact h

theorem of_sendBytes (hR : Sequenced R) (bs : List Byte) (s : State) :
    R (bs.map (cmdEvents s.cfg)) s (sendBytes bs s) := by
  induction bs generalizing s with
  | nil => exact hR.quiet rfl
  | cons b bs ih =>
    refine hR.bind (hR.cmd s b) fun t ht => ?_
    have hc : t.cfg = s.cfg := by simpa [ht] using (State.cmd_moved s b).cfg
    rw [← hc]
    exact ih t

theorem of_command (hR : Sequenced R) (s : State) (i : Instr) :
    R ((encodeWire s.cfg.opc i).map (cmdEvents s.cfg)) s (s.command i) := hR.of_sendBytes _ s

theorem of_walk (hR : Sequenced R) (is : List Instr) (s : State) :
    R ((is.flatMap (encodeWire s.cfg.opc)).map (cmdEvents s.cfg)) s (walk is s) := by
  rw [walk_eq_sendBytes]
  exact hR.of_sendBytes _ s

end Sequenced

/-- The window commands are the six bytes of R163. -/
theorem showTable_bytes (c : Cfg) : (showTable c).flatMap (encodeWire c.opc) = showBytes c := by
  by_cases h : c.w = 64 <;> simp [showTable, showBytes, encodeWire, asByte, Cfg.colFirst, Cfg.colLast, Cfg.xoff, h]

/-- The table of INIT is the 25 bytes of R162. -/
theorem initTable_bytes (c : Cfg) : (initTable c).flatMap (encodeWire c.opc) = initBytes c := by
  simp [initTable, initBytes, encodeWire, asByte]

/-- `FB` after it is filled, in index order. -/
theorem State.fbBytes_fillFb (s : State) (v : Byte) : (s.fillFb v).fbBytes = List.replicate s.cfg.len v := by
  refine List.eq_replicate_iff.2 ⟨by simp [State.fbBytes, State.fillFb], fun b hb => ?_⟩
  obtain ⟨i, hi, rfl⟩ := List.mem_map.1 hb
  exact State.fbRead_fbSetAll s _ (List.mem_range.1 hi)

/-- The bus side leaves `FB` as it reads. -/
theorem State.BusMoved.fbBytes {s t : State} (h : s.BusMoved t) : t.fbBytes = s.fbBytes := by
  unfold State.fbBytes
  rw [h.cfg]
  exact List.map_congr_left fun i _ => State.fbRead_congr h.fb h.fbDraw i

namespace Sequenced
variable {R : List (List Event) → State → Run → Prop}

theorem of_showBody (hR : Sequenced R) (s : State) : R (txnsOf s.cfg s.fbBytes .showFrame) s s.showBody := by
  have hw := hR.of_walk (showTable s.cfg) s
  rw [showTable_bytes] at hw
  refine hR.bind hw fun t ht => ?_
  have hm : s.BusMoved t := by simpa [ht] using walk_moved (showTable s.cfg) s
  rw [← hm.cfg, ← hm.fbBytes]
  exact hR.data t t.fbBytes

theorem of_initBody (hR : Sequenced R) (s : State) : R (txnsOf s.cfg s.fbBytes .init) s s.initBody := by
  have hw := hR.of_walk (initTable s.cfg) s
  rw [initTable_bytes] at hw
  refine hR.andThen ?_ fun t => rfl
  rw [show txnsOf s.cfg s.fbBytes .init = (initBytes s.cfg).map (cmdEvents s.cfg) ++
      txnsOf s.cfg (List.replicate s.cfg.len 0) .showFrame by simp [txnsOf]]
  refine hR.bind hw fun t ht => ?_
  have hm : s.BusMoved t := by simpa [ht] using walk_moved (initTable s.cfg) s
  have hq : R [] t (.ok (t.fillFb 0x00)) := hR.quiet rfl
  have hs := hR.of_showBody (t.fillFb 0x00)
  rw [State.fbBytes_fillFb, show (t.fillFb 0x00).cfg = t.cfg from rfl, hm.cfg] at hs
  exact hR.next (gs := []) hq hs

/-- Every body but PWRON's pulse is a sequence of the transactions of its instruction (R91, R161 to R166). -/
theorem of_bodyOf (hR : Sequenced R) {i : Instr} (hi : i ≠ .pwron) (s : State) :
    R (txnsOf s.cfg s.fbBytes i) s (bodyOf i s) := by
  cases i with
  | fill c => exact hR.quiet rfl
  | setpx x y c => exact hR.quiet (.of_only_fb (State.setPx_only_fb _ _ _ _))
  | scroll dx dy => exact hR.quiet rfl
  | pwron => exact absurd rfl hi
  | init => exact hR.of_initBody s
  | showFrame => exact hR.of_showBody s
  | pwroff => exact hR.andThen (hR.of_command s (.setDisp 0)) fun t => rfl
  | glyphs ch x y c sc => exact hR.quiet (.of_only_fb (State.drawGlyph_only_fb _ _ _ _ _ _))
  | texts t x y => exact hR.quiet (by unfold State.Quiet; rw [textsLoop_only_fb_pen]; rfl)
  | text t x y c => exact hR.quiet (by unfold State.Quiet; rw [textLoop_only_fb_pen]; rfl)
  | contrast v => exact hR.of_command s (.setContrast v)
  | invert b => exact hR.of_command s (.setNormInv b)
  | _ => exact hR.of_command s _

end Sequenced

/-! ### What the bus does with the transactions of a piece (R136 to R138) -/

/-- A transaction that is not answered fails or waits for ever, as there is a timeout or not (R138). -/
theorem NeverAnswered.fails_or_waits (c : Cfg) {bus r : List Reply} (h : NeverAnswered bus r) :
    FailsNext c bus r ∨ c.busTimeout = none := by
  cases ht : c.busTimeout with
  | none => exact .inr rfl
  | some us => exact .inl (.inr ⟨h, by rw [ht]; rfl⟩)

/-- What the bus does next: it answers `Done`, the transaction fails, or it waits for ever. -/
theorem bus_cases (c : Cfg) (bus : List Reply) :
    (∃ r, bus = .done :: r) ∨ (∃ r, FailsNext c bus r) ∨ ∃ r, NeverAnswered bus r ∧ c.busTimeout = none := by
  have unanswered (r : List Reply) (h : NeverAnswered bus r) :
      (∃ r, FailsNext c bus r) ∨ ∃ r, NeverAnswered bus r ∧ c.busTimeout = none :=
    (h.fails_or_waits c).imp (fun hf => ⟨r, hf⟩) fun ht => ⟨r, h, ht⟩
  match bus with
  | [] => exact .inr (unanswered [] (.inr ⟨rfl, rfl⟩))
  | .done :: r => exact .inl ⟨r, rfl⟩
  | .fail :: r => exact .inr (.inl ⟨r, .inl rfl⟩)
  | .never :: r => exact .inr (unanswered r (.inl rfl))

/-- A piece sent the transactions `gs` in order, each to its answer, until one failed or was never answered: its events,
the answers drawn, what the bus still has to give, and the transaction waited on. -/
inductive Sends (gs : List (List Event)) (s : State) : Run → Prop where
  /-- every transaction was answered `Done` -/
  | ok {t : State} (cfg : t.cfg = s.cfg) (trace : t.trace = s.trace ++ gs.flatten)
      (drawn : t.drawn = s.drawn ++ List.replicate gs.length Answer.done)
      (bus : s.bus = List.replicate gs.length Reply.done ++ t.bus) (wait : t.wait = s.wait) : Sends gs s (.ok t)
  /-- transaction `k` failed, with the bus list at `q` -/
  | failed {t : State} {q : List Reply} (k : Nat) (lt : k < gs.length) (cfg : t.cfg = s.cfg)
      (trace : t.trace = s.trace ++ (gs.take (k + 1)).flatten)
      (drawn : t.drawn = s.drawn ++ (List.replicate k Answer.done ++ [Answer.fail]))
      (bus : s.bus = List.replicate k Reply.done ++ q)
      (fails : FailsNext s.cfg q t.bus) (wait : t.wait = s.wait) : Sends gs s (.failed t)
  /-- transaction `k`, of events `g`, is never answered, with the bus list at `q` -/
  | hung {t : State} {q : List Reply} (k : Nat) (g : List Event) (at_k : gs[k]? = some g) (cfg : t.cfg = s.cfg)
      (trace : t.trace = s.trace ++ (gs.take k).flatten ++ unanswered s.cfg g)
      (drawn : t.drawn = s.drawn ++ List.replicate k Answer.done) (bus : s.bus = List.replicate k Reply.done ++ q)
      (never : NeverAnswered q t.bus) (noTimeout : s.cfg.busTimeout = none) (wait : t.wait.isSome = true) :
      Sends gs s (.hung t)

namespace Sends

theorem cmd (s : State) (b : Byte) : Sends [cmdEvents s.cfg b] s (s.cmd b) := by
  rcases bus_cases s.cfg s.bus with ⟨r, h⟩ | ⟨r, h⟩ | ⟨r, h, ht⟩
  · rw [State.cmd_answered (a := .done) h]
    exact .ok (by simp) (by simp) (by simp) (by simpa using h) (by simp)
  · rw [State.cmd_fails h]
    exact .failed 0 (by simp) (by simp) (by simp) (by simp) rfl (by simpa using h) (by simp)
  · rw [State.cmd_unanswered h ht]
    exact .hung 0 _ rfl (State.cmdWaiting_moved s b r).cfg (by simp) (by simp) rfl (by simpa using h) ht (by simp)

theorem data (s : State) (bs : List Byte) : Sends [dataEvents s.cfg bs] s (s.data bs) := by
  rcases bus_cases s.cfg s.bus with ⟨r, h⟩ | ⟨r, h⟩ | ⟨r, h, ht⟩
  · rw [State.data_answered (a := .done) h]
    exact .ok (State.dataAnswered_moved s bs _ r).cfg (by simp) (by simp) (by simpa using h) (by simp)
  · rw [State.data_fails h]
    exact .failed 0 (by simp) (State.dataAnswered_moved s bs _ r).cfg (by simp) (by simp) rfl (by simpa using h)
      (by simp)
  · rw [State.data_unanswered h ht]
    exact .hung 0 _ rfl (State.dataWaiting_moved s bs r).cfg (by simp) (by simp) rfl (by simpa using h) ht (by simp)

theorem next {gs hs : List (List Event)} {s t : State} {r : Run} (h1 : Sends gs s (.ok t)) (h2 : Sends hs t r) :
    Sends (gs ++ hs) s r := by
  obtain ⟨c1, t1, d1, b1, w1⟩ := h1
  cases h2 with
  | ok c2 t2 d2 b2 w2 =>
    refine .ok (c2.trans c1) ?trace ?drawn ?bus (w2.trans w1)
    case trace => rw [t2, t1, List.flatten_append, List.append_assoc]
    case drawn => rw [d2, d1, List.length_append, List.replicate_add, List.append_assoc]
    case bus => rw [b1, b2, List.length_append, List.replicate_add, List.append_assoc]
  | failed k lt c2 t2 d2 b2 fails w2 =>
    refine .failed (gs.length + k) ?lt (c2.trans c1) ?trace ?drawn ?bus (c1 ▸ fails) (w2.trans w1)
    case lt => rw [List.length_append]; omega
    case trace =>
      rw [t2, t1, Nat.add_assoc, List.take_length_add_append, List.flatten_append, List.append_assoc]
    case drawn => simp only [d2, d1, List.replicate_add, List.append_assoc]
    case bus => rw [b1, b2, List.replicate_add, List.append_assoc]
  | hung k g at_k c2 t2 d2 b2 never noTimeout w2 =>
    refine .hung (gs.length + k) g ?at_k (c2.trans c1) ?trace ?drawn ?bus never (c1 ▸ noTimeout) w2
    case at_k => rw [List.getElem?_append_right (by omega), Nat.add_sub_cancel_left, at_k]
    case trace => simp only [t2, t1, c1, List.take_length_add_append, List.flatten_append, List.append_assoc]
    case drawn => rw [d2, d1, List.replicate_add, List.append_assoc]
    case bus => rw [b1, b2, List.replicate_add, List.append_assoc]

theorem sequenced : Sequenced Sends where
  quiet h := by rw [h]; exact .ok rfl (by simp) (by simp) (by simp) rfl
  cmd := cmd
  data := data
  next := next
  failed {gs} hs _ _ h := by
    obtain ⟨⟩ | ⟨k, lt, c, t, d, b, fails, w⟩ := h
    exact .failed k (by rw [List.length_append]; omega) c (by rw [t, List.take_append_of_le_length lt]) d b fails w
  hung {gs} hs _ _ h := by
    obtain ⟨⟩ | ⟨⟩ | ⟨k, g, hg, c, t, d, b, never, ht, w⟩ := h
    have lt : k < gs.length := (List.getElem?_eq_some_iff.1 hg).1
    exact .hung k g (by rw [List.getElem?_append_left lt]; exact hg) c
      (by rw [t, List.take_append_of_le_length lt.le]) d b never ht w

end Sends

/-- What the body of an instruction sends (R91, R161 to R166). -/
theorem bodyOf_sends {i : Instr} (hi : i ≠ .pwron) (s : State) : Sends (txnsOf s.cfg s.fbBytes i) s (bodyOf i s) :=
  Sends.sequenced.of_bodyOf hi s

theorem bodyOf_pwron (s : State) : bodyOf .pwron s = .ok s.powerOn := rfl

/-- PWRON leaves the bus as it is (R160). -/
theorem State.powerOn_bus (s : State) :
    s.powerOn.drawn = s.drawn ∧ s.powerOn.bus = s.bus ∧ s.powerOn.wait = s.wait := by
  unfold State.powerOn
  split
  · exact ⟨rfl, rfl, rfl⟩
  · rw [State.resetPulse_eq]; exact ⟨rfl, rfl, rfl⟩

/-- A body that came to an end waits on nothing new. -/
theorem bodyOf_wait (i : Instr) (s : State) : (bodyOf i s).state.wait = s.wait ∨ ∃ t, bodyOf i s = .hung t := by
  by_cases hi : i = .pwron
  · obtain ⟨-, -, wait⟩ := State.powerOn_bus s
    rw [hi, bodyOf_pwron]
    exact .inl wait
  · have h := bodyOf_sends hi s
    cases hr : bodyOf i s with
    | ok t => rw [hr] at h; obtain ⟨-, -, -, -, w⟩ := h; exact .inl w
    | failed t => rw [hr] at h; obtain ⟨⟩ | ⟨k, lt, -, -, -, -, -, w⟩ := h; exact .inl w
    | hung t => exact .inr ⟨t, rfl⟩

/-! ### What the body of an instruction leaves in place -/

theorem State.Moved.cfg {s t : State} (h : s.Moved t) : t.cfg = s.cfg := by rw [h.1]
theorem State.Moved.fbDraw {s t : State} (h : s.Moved t) : t.fbDraw = s.fbDraw := by rw [h.1]
theorem State.Moved.pkt {s t : State} (h : s.Moved t) : t.pkt = s.pkt := by rw [h.1]
theorem State.Moved.wire {s t : State} (h : s.Moved t) : t.wire = s.wire := by rw [h.1]
theorem State.Moved.draws {s t : State} (h : s.Moved t) : t.draws = s.draws := by rw [h.1]

/-- No body leaves a pen behind (R27). -/
theorem State.Moved.noPen {s t : State} (h : s.Moved t) (hs : s.pen = none) : t.pen = none := by
  obtain ⟨-, -, pen, -⟩ := h
  rcases pen with pen | pen
  · exact pen.trans hs
  · exact pen

/-- In a legal geometry every body keeps the form of the framebuffer (R56). -/
theorem State.Moved.fbOk {s t : State} (h : s.Moved t) (legal : s.cfg.legal = true) (hs : s.FbOk) : t.FbOk := by
  obtain ⟨-, -, -, fbOk⟩ := h
  exact fbOk (Cfg.legal_h legal) hs

/-! ### The invariant of the machine (R27 to R29, R56, R86, R138) -/

/-- The invariant reads the configuration, the framebuffer, the packet and what is in flight. -/
theorem State.Inv.withHost_tick {s : State} (h : s.Inv) (rest : List HostAct) : (s.tick.withHost rest).Inv :=
  ⟨h.fbSorted, h.fbBelow, h.packet, h.noWire, h.noPen, h.waiting, h.fresh⟩

theorem State.Inv.tick {s : State} (h : s.Inv) : s.tick.Inv := h.withHost_tick s.host

/-- Reset meets the invariant, whatever stood before it (R36, R250). -/
theorem State.doReset_inv (s : State) : s.doReset.Inv where
  fbSorted := List.Pairwise.nil
  fbBelow := fun _ h => absurd h List.not_mem_nil
  packet := rfl
  noWire := rfl
  noPen := rfl
  waiting := fun h => nomatch h
  fresh := Nat.lt_succ_self s.draws

theorem State.Inv.serveRead {s : State} (h : s.Inv) (i : Nat) : (s.serveRead i).Inv := by
  obtain ⟨eq, le⟩ := State.serveRead_eq s i
  have fresh := Nat.lt_of_lt_of_le h.fresh le
  rw [eq]
  exact ⟨h.fbSorted, h.fbBelow, h.packet, h.noWire, h.noPen, h.waiting, fresh⟩

/-- Where a byte may come, the packet so far is incomplete: empty, or collected. -/
theorem State.Inv.incomplete {s : State} (h : s.Inv) (hp : s.ph = .idle ∨ s.ph = .collect) :
    parsePacket s.pkt = .incomplete := by
  have packet := h.packet
  unfold State.packetOk at packet
  rcases hp with hp | hp <;> rw [hp] at packet
  · rw [show s.pkt = [] from packet]; rfl
  · exact packet.2

theorem State.Inv.accept {s : State} (h : s.Inv) (hp : s.ph = .idle ∨ s.ph = .collect) (b : Byte) :
    (s.accept b).Inv := by
  have incomplete := h.incomplete hp
  have idle : ¬ s.wait.isSome = true := fun hw => by
    have exec := h.waiting hw
    rcases hp with hp | hp <;> exact nomatch hp.symm.trans exec
  rcases State.accept_cases s b with ⟨i, r, hr, eq⟩ | ⟨hr, eq⟩ | ⟨r, hr, eq⟩ <;> rw [eq]
  · obtain rfl : r = [] := parsePacket_endsAtLastByte.last _ _ _ _ incomplete hr
    exact ⟨h.fbSorted, h.fbBelow, ⟨i, hr⟩, h.noWire, h.noPen, fun _ => rfl, h.fresh⟩
  · exact ⟨h.fbSorted, h.fbBelow, ⟨by simp, hr⟩, h.noWire, h.noPen, fun hw => absurd hw idle, h.fresh⟩
  · exact ⟨h.fbSorted, h.fbBelow, incomplete, h.noWire, h.noPen, fun hw => absurd hw idle, h.fresh⟩

/-- The packet and the staging slot when an operation ends, or stays in EXEC. -/
theorem Run.next_packet {s : State} {r : Run} (hs : s.Inv) (hp : s.ph = .exec) (hm : s.Moved r.state) :
    r.next.packetOk ∧ r.next.wire = [] := by
  cases r with
  | ok t => exact ⟨rfl, rfl⟩
  | failed t => exact ⟨rfl, rfl⟩
  | hung t =>
    have packet := hs.packet
    unfold State.packetOk at packet
    rw [hp] at packet
    refine ⟨?_, hm.wire.trans hs.noWire⟩
    show ∃ i, parsePacket t.pkt = .complete i []
    rw [show t.pkt = s.pkt from hm.pkt]
    exact packet

/-- An operation keeps the invariant. -/
theorem State.Inv.after_exec {s t : State} {i : Instr} (h : s.Inv) (legal : s.cfg.legal = true) (hp : s.ph = .exec)
    (hw : s.wait = none) (he : exec i s = .next t) : t.Inv := by
  obtain rfl := next_of_exec he
  have hm := bodyOf_moved i s
  obtain ⟨packet, wire⟩ := Run.next_packet h hp hm
  obtain ⟨sorted, below⟩ := hm.fbOk legal ⟨h.fbSorted, h.fbBelow⟩
  refine ⟨by simpa using sorted, by simpa using below, packet, wire, by simpa using hm.noPen h.noPen, fun hw' => ?_,
    by simpa [hm.draws, hm.fbDraw] using h.fresh⟩
  rcases bodyOf_wait i s with hk | ⟨u, hr⟩
  · rw [Run.next_wait, hk, hw] at hw'
    exact nomatch hw'
  · rw [hr]; rfl

/-- Settles O18: the ways a step can answer a next state, one by one. -/
theorem stepKeepsTheInvariant : Obligations.StepKeepsTheInvariant := by
  intro s s' h hstep
  obtain ⟨legal, hc⟩ := step_next_cases hstep
  cases hc with
  | reset rest _ eq => exact eq ▸ State.doReset_inv _
  | read i rest _ eq => exact eq ▸ (h.withHost_tick rest).serveRead i
  | accept b rest _ hp eq => exact eq ▸ (h.withHost_tick rest).accept hp b
  | deaf b rest _ _ eq => exact eq ▸ h.withHost_tick rest
  | idle _ _ eq => exact eq ▸ h.tick
  | pause rest _ _ eq => exact eq ▸ h.withHost_tick rest
  | run i rest _ hp hw _ he => exact (h.withHost_tick rest).after_exec legal hp hw he

/-! ### A step that is no reset and runs nothing -/

/-- Only the host's side of PSDC has changed: the phase, the packet, the ports, the list of the host and the numbers of
free draws. -/
def State.PortMoved (s t : State) : Prop :=
  t = { s with ph := t.ph, pkt := t.pkt, rsp := t.rsp, rdata := t.rdata, host := t.host, draws := t.draws }

theorem State.PortMoved.tick_withHost (s : State) (rest : List HostAct) : s.PortMoved (s.tick.withHost rest) := rfl

theorem State.PortMoved.trans {s t u : State} (h1 : s.PortMoved t) (h2 : t.PortMoved u) : s.PortMoved u := by
  unfold State.PortMoved at *
  rw [h2, h1]

theorem State.serveRead_portMoved (s : State) (i : Nat) : s.PortMoved (s.serveRead i) := by
  unfold State.PortMoved
  rw [(State.serveRead_eq s i).1]

theorem State.accept_portMoved (s : State) (b : Byte) : s.PortMoved (s.accept b) := by
  rcases State.accept_cases s b with ⟨i, r, -, eq⟩ | ⟨-, eq⟩ | ⟨r, -, eq⟩ <;> rw [eq] <;> rfl

/-- The three kinds of step: a reset, a step at the ports, an operation with nothing in flight before it. -/
theorem step_next_kinds {s s' : State} (h : step s = .next s') :
    (∃ rest, s' = (s.tick.withHost rest).doReset) ∨ s.PortMoved s' ∨
      ∃ i rest, s.wait = none ∧ exec i (s.tick.withHost rest) = .next s' := by
  obtain ⟨-, hc⟩ := step_next_cases h
  cases hc with
  | reset rest _ eq => exact .inl ⟨rest, eq⟩
  | read i rest _ eq =>
    exact .inr (.inl (eq ▸ (State.PortMoved.tick_withHost s rest).trans (State.serveRead_portMoved _ i)))
  | accept b rest _ _ eq =>
    exact .inr (.inl (eq ▸ (State.PortMoved.tick_withHost s rest).trans (State.accept_portMoved _ b)))
  | deaf b rest _ _ eq => exact .inr (.inl (eq ▸ State.PortMoved.tick_withHost s rest))
  | idle _ _ eq => exact .inr (.inl (eq ▸ State.PortMoved.tick_withHost s s.host))
  | pause rest _ _ eq => exact .inr (.inl (eq ▸ State.PortMoved.tick_withHost s rest))
  | run i rest _ _ wait _ he => exact .inr (.inr ⟨i, rest, wait, he⟩)

/-! ### The discipline of the bus side (R13, R133, R135, R136) -/

/-- The events of one transaction on the transport of `c`: one transaction event, of the transport's own kind, and on
`CS` one clock configuration (R13, R135). -/
structure TxnEvents (c : Cfg) (es : List Event) : Prop where
  one : (es.filter Event.isTxn).length = 1
  reg : c.transport = .reg → ∀ e ∈ es, e.isReg = true
  cs : c.transport = .cs → ∀ e ∈ es, e.isReg = false
  clock : c.transport = .cs → (es.filter Event.isClk).length = 1

theorem TxnEvents.regTxn {c : Cfg} (h : c.transport = .reg) (addr : BitVec 7) (bs : List Byte) :
    TxnEvents c [.regTxn addr bs] where
  one := rfl
  reg _ := by simp [Event.isReg]
  cs hc := nomatch h.symm.trans hc
  clock hc := nomatch h.symm.trans hc

/-- A frame of the chip-select transport whose answer has not come (R133, R134). -/
theorem TxnEvents.csWaiting {c : Cfg} (h : c.transport = .cs) (k : ClkCfg) (v : Bit) (bs : List Byte) :
    TxnEvents c [.clkCfg k, .sigDc v, .sigCsel .asserted, .csBytes bs] where
  one := rfl
  reg hr := nomatch h.symm.trans hr
  cs _ := by simp [Event.isReg]
  clock _ := rfl

theorem TxnEvents.csFrame {c : Cfg} (h : c.transport = .cs) (k : ClkCfg) (v : Bit) (bs : List Byte) :
    TxnEvents c [.clkCfg k, .sigDc v, .sigCsel .asserted, .csBytes bs, .sigCsel .deasserted] where
  one := rfl
  reg hr := nomatch h.symm.trans hr
  cs _ := by simp [Event.isReg]
  clock _ := rfl

theorem cmdEvents_txn (c : Cfg) (b : Byte) : TxnEvents c (cmdEvents c b) := by
  unfold cmdEvents
  split
  · exact .regTxn ‹_› _ _
  · exact .csFrame ‹_› _ _ _

theorem dataEvents_txn (c : Cfg) (bs : List Byte) : TxnEvents c (dataEvents c bs) := by
  unfold dataEvents
  split
  · exact .regTxn ‹_› _ _
  · exact .csFrame ‹_› _ _ _

theorem unanswered_cmdEvents_txn (c : Cfg) (b : Byte) : TxnEvents c (unanswered c (cmdEvents c b)) := by
  unfold unanswered cmdEvents
  cases h : c.transport with
  | reg => exact .regTxn h _ _
  | cs => exact .csWaiting h _ _ _

theorem unanswered_dataEvents_txn (c : Cfg) (bs : List Byte) : TxnEvents c (unanswered c (dataEvents c bs)) := by
  unfold unanswered dataEvents
  cases h : c.transport with
  | reg => exact .regTxn h _ _
  | cs => exact .csWaiting h _ _ _

/-- Where a transaction leaves the lines: on `REG` as they were, on `CS` with chip select released, unless the
transaction waits (R32, R133). -/
structure LinesAfterTxn (s : State) (r : Run) : Prop where
  reg : s.cfg.transport = .reg → r.state.csel = s.csel ∧ r.state.dc = s.dc ∧ r.state.res = s.res
  cs : s.cfg.transport = .cs → r.state.csel = .deasserted ∨ ∃ t, r = .hung t

theorem State.unansweredTxn_lines (s : State) (e : Event) (r : List Reply) :
    (s.unansweredTxn e r).state.csel = s.csel ∧ (s.unansweredTxn e r).state.dc = s.dc ∧
      (s.unansweredTxn e r).state.res = s.res := by
  unfold State.unansweredTxn
  split <;> exact ⟨rfl, rfl, rfl⟩

/-- The bus itself drives no line. -/
theorem State.busTxn_lines (s : State) (e : Event) :
    (s.busTxn e).state.csel = s.csel ∧ (s.busTxn e).state.dc = s.dc ∧ (s.busTxn e).state.res = s.res := by
  unfold State.busTxn
  split
  · exact ⟨rfl, rfl, rfl⟩
  · exact ⟨rfl, rfl, rfl⟩
  · exact State.unansweredTxn_lines (s.emit e) e _
  · exact State.unansweredTxn_lines (s.emit e) e _

theorem State.csFrame_csel (s : State) (v : Bit) (bs : List Byte) :
    (s.csFrame v bs).state.csel = .deasserted ∨ ∃ t, s.csFrame v bs = .hung t := by
  unfold State.csFrame
  cases (((s.setClk fixedClk).setDc v).setCsel .asserted).busTxn (.csBytes bs) with
  | ok t => exact .inl rfl
  | failed t => exact .inl rfl
  | hung t => exact .inr ⟨t, rfl⟩

theorem State.cmd_lines (s : State) (b : Byte) : LinesAfterTxn s (s.cmd b) := by
  unfold State.cmd
  split
  · rename_i h
    exact ⟨fun _ => State.busTxn_lines _ _, fun hc => nomatch h.symm.trans hc⟩
  · rename_i h
    exact ⟨fun hr => (nomatch h.symm.trans hr), fun _ => State.csFrame_csel s 0 [b]⟩

theorem State.data_lines (s : State) (bs : List Byte) : LinesAfterTxn s (s.data bs) := by
  unfold State.data
  split
  · rename_i h
    exact ⟨fun _ => State.busTxn_lines _ _, fun hc => nomatch h.symm.trans hc⟩
  · rename_i h
    exact ⟨fun hr => (nomatch h.symm.trans hr), fun _ => State.csFrame_csel s 1 bs⟩

namespace State.BusInv

/-- What the invariant does not read may change. -/
theorem congr {s t : State} (h : s.BusInv) (eq : t = { s with
    fb := t.fb, fbDraw := t.fbDraw, temp0 := t.temp0, temp1 := t.temp1, ph := t.ph, pkt := t.pkt, pen := t.pen,
    busErr := t.busErr, life := t.life, clkCfg := t.clkCfg, rsp := t.rsp, rdata := t.rdata, host := t.host,
    bus := t.bus, wire := t.wire, draws := t.draws }) : t.BusInv := by
  rw [eq]
  exact ⟨h.answers, h.regEvents, h.regLines, h.csEvents, h.csClocks, h.csReleased⟩

/-- One more transaction, answered or waited on. -/
theorem transaction {s t : State} {es : List Event} (h : s.BusInv) (idle : s.wait = none) (cfg : t.cfg = s.cfg)
    (trace : t.trace = s.trace ++ es) (txn : TxnEvents s.cfg es)
    (regLines : s.cfg.transport = .reg → t.csel = s.csel ∧ t.dc = s.dc ∧ t.res = s.res)
    (released : s.cfg.transport = .cs → t.wait = none → t.csel = .deasserted)
    (count : t.drawn.length + (if t.wait.isSome then 1 else 0) = s.drawn.length + 1) : t.BusInv where
  answers := by
    have answers := h.answers
    simp only [idle, Option.isSome_none, Bool.false_eq_true, if_false, Nat.add_zero] at answers
    rw [count, trace, List.filter_append, List.length_append, txn.one, answers]
  regEvents hr e he := by
    rw [cfg] at hr
    rw [trace] at he
    exact (List.mem_append.1 he).elim (h.regEvents hr e) (txn.reg hr e)
  regLines hr := by
    rw [cfg] at hr
    obtain ⟨csel, dc, res⟩ := regLines hr
    rw [csel, dc, res]
    exact h.regLines hr
  csEvents hc e he := by
    rw [cfg] at hc
    rw [trace] at he
    exact (List.mem_append.1 he).elim (h.csEvents hc e) (txn.cs hc e)
  csClocks hc := by
    rw [cfg] at hc
    rw [trace, List.filter_append, List.filter_append, List.length_append, List.length_append, txn.one, txn.clock hc,
      h.csClocks hc]
  csReleased hc := by
    rw [cfg] at hc
    exact released hc

end State.BusInv

/-- A piece that starts with nothing in flight keeps the discipline of the bus, and waits on nothing when it ran to its
end. -/
def KeepsBusInv (_ : List (List Event)) (s : State) (r : Run) : Prop :=
  s.BusInv → s.wait = none → r.state.BusInv ∧ ∀ t, r = .ok t → t.wait = none

/-- One transaction keeps the discipline of the bus. -/
theorem KeepsBusInv.of_sends {g : List Event} {s : State} {r : Run} (sends : Sends [g] s r) (whole : TxnEvents s.cfg g)
    (cut : TxnEvents s.cfg (unanswered s.cfg g)) (lines : LinesAfterTxn s r) : KeepsBusInv [g] s r := by
  intro h idle
  have released {t : State} (hr : ∀ u, r ≠ .hung u) (ht : r.state = t) :
      s.cfg.transport = .cs → t.wait = none → t.csel = .deasserted :=
    fun hc _ => ht ▸ (lines.cs hc).resolve_right fun ⟨u, hu⟩ => hr u hu
  cases sends with
  | ok cfg trace drawn _ wait =>
    exact ⟨h.transaction idle cfg (by simpa using trace) whole lines.reg (released (fun _ hu => nomatch hu) rfl)
      (by simp [drawn, wait, idle]), fun u hu => by injection hu with hu; rw [← hu, wait, idle]⟩
  | failed k lt cfg trace drawn _ _ wait =>
    obtain rfl : k = 0 := by simpa using lt
    exact ⟨h.transaction idle cfg (by simpa using trace) whole lines.reg (released (fun _ hu => nomatch hu) rfl)
      (by simp [drawn, wait, idle]), fun _ hu => nomatch hu⟩
  | @hung t q k g' at_k cfg trace drawn _ _ _ wait =>
    obtain ⟨rfl, rfl⟩ : k = 0 ∧ g = g' := by simpa [List.getElem?_singleton] using at_k
    exact ⟨h.transaction idle cfg (by simpa using trace) cut lines.reg
      (fun _ (hw : t.wait = none) => by simp [hw] at wait) (by simp [drawn, wait]), fun _ hu => nomatch hu⟩

theorem KeepsBusInv.sequenced : Sequenced KeepsBusInv where
  quiet {s t} hq h idle := by
    refine ⟨h.congr (by rw [Run.state_ok, hq]), fun u hu => ?_⟩
    injection hu with hu
    rw [← hu, hq]
    exact idle
  cmd s b := .of_sends (.cmd s b) (cmdEvents_txn _ b) (unanswered_cmdEvents_txn _ b) (State.cmd_lines s b)
  data s bs := .of_sends (.data s bs) (dataEvents_txn _ bs) (unanswered_dataEvents_txn _ bs) (State.data_lines s bs)
  next h1 h2 h idle := by
    obtain ⟨ht, hw⟩ := h1 h idle
    exact h2 ht (hw _ rfl)
  failed _ _ _ h := h
  hung _ _ _ h := h

/-- The reset pulse of PWRON, on `CS` only, is no transaction (R160). -/
theorem State.BusInv.powerOn {s : State} (h : s.BusInv) : s.powerOn.BusInv := by
  cases hc : s.cfg.transport with
  | reg =>
    unfold State.powerOn
    rw [hc]
    exact h.congr rfl
  | cs =>
    unfold State.powerOn
    rw [hc, State.resetPulse_eq]
    exact {
      answers := by simpa [Event.isTxn] using h.answers
      regEvents := fun hr => nomatch hc.symm.trans hr
      regLines := fun hr => nomatch hc.symm.trans hr
      csEvents := fun _ => by simpa [or_imp, forall_and, Event.isReg] using h.csEvents hc
      csClocks := fun _ => by simpa [Event.isTxn, Event.isClk] using h.csClocks hc
      csReleased := h.csReleased }

/-- An operation keeps the discipline of the bus. -/
theorem State.BusInv.after_exec {s t : State} {i : Instr} (h : s.BusInv) (idle : s.wait = none)
    (he : exec i s = .next t) : t.BusInv := by
  obtain rfl := next_of_exec he
  have body : (bodyOf i s).state.BusInv := by
    by_cases hi : i = .pwron
    · rw [hi, bodyOf_pwron]; exact h.powerOn
    · exact (KeepsBusInv.sequenced.of_bodyOf hi s h idle).1
  cases hr : bodyOf i s <;> rw [hr] at body <;> exact body.congr rfl

/-- After reset the trace is empty and the lines are at their reset levels (R36). -/
theorem State.doReset_busInv (s : State) : s.doReset.BusInv where
  answers := rfl
  regEvents := fun _ _ he => absurd he List.not_mem_nil
  regLines := fun _ => ⟨rfl, rfl, rfl⟩
  csEvents := fun _ _ he => absurd he List.not_mem_nil
  csClocks := fun _ => rfl
  csReleased := fun _ _ => rfl

/-- Settles O20: a reset empties the trace, the ports do not touch the bus, and an operation is a sequence of
transactions. -/
theorem stepKeepsTheBusInvariant : Obligations.StepKeepsTheBusInvariant := by
  intro s s' h hstep
  rcases step_next_kinds hstep with ⟨rest, rfl⟩ | hp | ⟨i, rest, idle, he⟩
  · exact State.doReset_busInv _
  · exact h.congr (by rw [hp])
  · exact (h.congr (t := s.tick.withHost rest) rfl).after_exec idle he

/-! ### Configuration, trace, timeout, refusals -/

/-- An instruction keeps the configuration. -/
theorem exec_cfg {i : Instr} {s t : State} (h : exec i s = .next t) : t.cfg = s.cfg := by
  rw [next_of_exec h, Run.next_cfg]
  exact (bodyOf_moved i s).cfg

/-- Settles O21: a reset, a step at the ports and an operation all keep it (R7, R23, R250). -/
theorem configurationNeverChanges : Obligations.ConfigurationNeverChanges := by
  intro s s' hstep
  rcases step_next_kinds hstep with ⟨rest, rfl⟩ | hp | ⟨i, rest, -, he⟩
  · rfl
  · rw [hp]
  · exact (exec_cfg he).trans rfl

/-- What a state has taken from the bus since `s`, with the answers `as` drawn and the part `used` of the list spent
(R136, R138). -/
def State.BusTaken (s t : State) (as : List Answer) (used : List Reply) : Prop :=
  t.drawn = s.drawn ++ as ∧ s.bus = used ++ t.bus ∧
    (s.cfg.busTimeout = none →
      used = as.map Answer.reply ∨ (used = as.map Answer.reply ++ [Reply.never] ∧ t.wait.isSome = true)) ∧
    (s.cfg.busTimeout.isSome = true →
      as = used.map Reply.expired ∨ (as = used.map Reply.expired ++ [Answer.fail] ∧ t.bus = []))

/-- Transactions spend the bus's list in order, each for one answer, but for the one that waits. -/
theorem Sends.busTaken {gs : List (List Event)} {s : State} {r : Run} (h : Sends gs s r) :
    ∃ as used, s.BusTaken r.state as used := by
  cases h with
  | ok _ _ drawn bus _ =>
    exact ⟨_, _, drawn, bus, fun _ => .inl (by simp [Answer.reply]), fun _ => .inl (by simp [Reply.expired])⟩
  | failed k _ _ _ drawn bus fails _ =>
    rcases fails with hq | ⟨hq | ⟨hq, hr⟩, ht⟩ <;> subst hq
    · exact ⟨_, List.replicate k Reply.done ++ [Reply.fail], drawn, by simpa using bus,
        fun _ => .inl (by simp [Answer.reply]), fun _ => .inl (by simp [Reply.expired])⟩
    · exact ⟨_, List.replicate k Reply.done ++ [Reply.never], drawn, by simpa using bus, fun hn => by simp [hn] at ht,
        fun _ => .inl (by simp [Reply.expired])⟩
    · exact ⟨_, List.replicate k Reply.done, drawn, by simpa [hr] using bus, fun hn => by simp [hn] at ht,
        fun _ => .inr ⟨by simp [Reply.expired], hr⟩⟩
  | hung k g _ _ _ drawn bus never noTimeout wait =>
    have noTimer : ¬ s.cfg.busTimeout.isSome = true := by simp [noTimeout]
    rcases never with hq | ⟨hq, hr⟩ <;> subst hq
    · exact ⟨_, List.replicate k Reply.done ++ [Reply.never], drawn, by simpa using bus,
        fun _ => .inr ⟨by simp [Answer.reply], wait⟩, fun ht => absurd ht noTimer⟩
    · exact ⟨_, List.replicate k Reply.done, drawn, by simpa [hr] using bus,
        fun _ => .inl (by simp [Answer.reply]), fun ht => absurd ht noTimer⟩

/-- What the body of any instruction takes from the bus; PWRON takes nothing. -/
theorem bodyOf_busTaken (i : Instr) (s : State) : ∃ as used, s.BusTaken (bodyOf i s).state as used := by
  by_cases hi : i = .pwron
  · obtain ⟨drawn, bus, -⟩ := State.powerOn_bus s
    rw [hi, bodyOf_pwron]
    exact ⟨[], [], drawn.trans (List.append_nil _).symm, bus.symm, fun _ => .inl rfl, fun _ => .inl rfl⟩
  · exact (bodyOf_sends hi s).busTaken

/-- Settles O23: a body appends to the trace, and spends the bus's list in order; the end of the operation touches
neither. -/
theorem traceOnlyGrows : Obligations.TraceOnlyGrows := by
  intro i s t he
  obtain rfl := next_of_exec he
  obtain ⟨-, ⟨es, trace⟩, -⟩ := bodyOf_moved i s
  obtain ⟨as, used, taken⟩ := bodyOf_busTaken i s
  unfold State.BusTaken at taken
  exact ⟨es, as, used, by simpa using trace, by simpa using taken⟩

/-- After `k` answers `Done`, the rest of a list of replies is read off in only one way. -/
theorem replicate_done_append_inj {k m : Nat} {q r : List Reply} (hq : ∀ x, q ≠ .done :: x)
    (hr : ∀ x, r ≠ .done :: x)
    (h : List.replicate k Reply.done ++ q = List.replicate m Reply.done ++ r) : k = m ∧ q = r := by
  induction k generalizing m with
  | zero =>
    cases m with
    | zero => exact ⟨rfl, by simpa using h⟩
    | succ m => exact absurd h (hq _)
  | succ k ih =>
    cases m with
    | zero => exact absurd h.symm (hr _)
    | succ m =>
      obtain ⟨rfl, rfl⟩ := ih (List.cons.inj h).2
      exact ⟨rfl, rfl⟩

theorem NeverAnswered.ne_done {q r : List Reply} (h : NeverAnswered q r) (x : List Reply) : q ≠ .done :: x := by
  rcases h with rfl | ⟨rfl, -⟩ <;> simp

theorem FailsNext.ne_done {c : Cfg} {q r : List Reply} (h : FailsNext c q r) (x : List Reply) : q ≠ .done :: x := by
  rcases h with rfl | ⟨h, -⟩
  · simp
  · exact h.ne_done x

/-- What the bus does after a transaction that fails is the list without its entry. -/
theorem FailsNext.rest_eq {c : Cfg} {q r : List Reply} (h : FailsNext c q r) : r = q.tail := by
  rcases h with rfl | ⟨rfl | ⟨rfl, rfl⟩, -⟩ <;> rfl

/-- Without a timeout a transaction does not both fail and wait for ever. -/
theorem FailsNext.not_never {c : Cfg} {q r r' : List Reply} (h : FailsNext c q r) (noTimeout : c.busTimeout = none) :
    ¬ NeverAnswered q r' := by
  rcases h with rfl | ⟨-, ht⟩
  · rintro (h | ⟨h, -⟩) <;> exact nomatch h
  · rw [noTimeout] at ht
    exact nomatch ht

/-- A piece whose transaction `k` fails stops there (R137): with all its events, its answer drawn, and nothing after. -/
theorem Sends.failed_at {gs : List (List Event)} {s : State} {r : Run} (h : Sends gs s r) {k : Nat} (lt : k < gs.length)
    {q rest : List Reply} (fails : FailsNext s.cfg q rest) (bus : s.bus = List.replicate k Reply.done ++ q) :
    ∃ t, r = .failed t ∧ t.trace = s.trace ++ (gs.take (k + 1)).flatten ∧
      t.drawn = s.drawn ++ (List.replicate k Answer.done ++ [Answer.fail]) ∧ t.bus = rest ∧ t.wait = s.wait := by
  cases h with
  | @ok t _ _ _ bus' _ =>
    exfalso
    rw [bus, show gs.length = k + (gs.length - k - 1 + 1) by omega, List.replicate_add, List.append_assoc] at bus'
    exact fails.ne_done _ (List.append_cancel_left bus')
  | @failed t q' m _ _ trace drawn bus' fails' wait =>
    obtain ⟨rfl, rfl⟩ := replicate_done_append_inj fails.ne_done fails'.ne_done (bus.symm.trans bus')
    exact ⟨t, rfl, trace, drawn, fails'.rest_eq.trans fails.rest_eq.symm, wait⟩
  | @hung t q' m g _ _ _ _ bus' never noTimeout _ =>
    exfalso
    obtain ⟨rfl, rfl⟩ := replicate_done_append_inj fails.ne_done never.ne_done (bus.symm.trans bus')
    exact fails.not_never noTimeout never

theorem Run.andThen_eq_failed {r : Run} {f : State → State} {t : State} (h : r.andThen f = .failed t) :
    r = .failed t := by
  cases r with
  | ok u => exact nomatch h
  | failed u => exact h
  | hung u => exact nomatch h

theorem State.BusMoved.life {s t : State} (h : s.BusMoved t) : t.life = s.life := by rw [h.1]

/-- A failed body of any instruction but INIT has moved only the bus side (R137). -/
theorem bodyOf_failed_moved {i : Instr} (hi : i ≠ .init) {s t : State} (h : bodyOf i s = .failed t) :
    s.BusMoved t := by
  have command (j : Instr) (h : sendBytes (encodeWire s.cfg.opc j) s = .failed t) : s.BusMoved t := by
    simpa [h] using sendBytes_moved (encodeWire s.cfg.opc j) s
  cases i with
  | fill | setpx | scroll | pwron | glyphs | texts | text => exact nomatch h
  | init => exact absurd rfl hi
  | showFrame => simpa [show s.showBody = .failed t from h] using s.showBody_moved
  | pwroff => exact command _ (Run.andThen_eq_failed h)
  | _ => exact command _ h

/-- A failed INIT leaves `LIFE` as it was (R137, R161). -/
theorem State.initBody_failed_life {s t : State} (h : s.initBody = .failed t) : t.life = s.life := by
  have body := Run.andThen_eq_failed h
  have walked := walk_moved (initTable s.cfg) s
  cases hw : walk (initTable s.cfg) s with
  | ok u =>
    rw [hw] at body walked
    have shown := (u.fillFb 0x00).showBody_moved
    rw [show (u.fillFb 0x00).showBody = .failed t from body] at shown
    exact shown.life.trans walked.life
  | failed u =>
    rw [hw] at body walked
    injection body with body
    exact body ▸ walked.life
  | hung u =>
    rw [hw] at body
    exact nomatch body

/-- An operation that fails leaves `LIFE` as it was (R222). -/
theorem bodyOf_failed_life {i : Instr} {s t : State} (h : bodyOf i s = .failed t) : t.life = s.life := by
  by_cases hi : i = .init
  · subst hi
    exact State.initBody_failed_life h
  · exact (bodyOf_failed_moved hi h).life

/-- Settles O56: an unanswered transaction fails where there is a timeout, and a failed transaction ends the
operation. -/
theorem timeoutReportsFail : Obligations.TimeoutReportsFail := by
  intro i s us k q r timeout lt never bus
  have hi : i ≠ .pwron := by
    rintro rfl
    exact absurd lt (Nat.not_lt_zero k)
  have fails : FailsNext s.cfg q r := .inr ⟨never, by rw [timeout]; rfl⟩
  obtain ⟨t, ht, trace, drawn, rest, wait⟩ := (bodyOf_sends hi s).failed_at lt fails bus
  have life : t.life = s.life := bodyOf_failed_life ht
  refine ⟨t.raiseBusFailure, by rw [exec_eq_next, ht, Run.next_failed], trace, drawn, rest, rfl, life,
    rfl, rfl, rfl, wait, fun hinit => (bodyOf_failed_moved hinit ht).fb⟩

/-! ### Refusals (R9, D10) -/

theorem State.runHeld_ne_refuse (s : State) (r : Refusal) : s.runHeld ≠ .refuse r := by
  rcases State.runHeld_cases s with ⟨i, -, eq⟩ | ⟨-, eq⟩ <;> rw [eq] <;> simp

theorem State.paused_ne_refuse (s : State) (r : Refusal) : s.paused ≠ .refuse r := by
  rcases State.paused_cases s with ⟨-, eq⟩ | ⟨-, -, eq⟩
  · rw [eq]; simp
  · rw [eq]; exact s.runHeld_ne_refuse r

theorem State.alone_ne_refuse (s : State) (r : Refusal) : s.alone ≠ .refuse r := by
  unfold State.alone
  split
  · simp
  · exact s.paused_ne_refuse r

theorem State.offered_ne_refuse (s : State) (b : Byte) (rest : List HostAct) (r : Refusal) :
    s.offered b rest ≠ .refuse r := by
  unfold State.offered
  split
  · simp
  · simp
  · split
    · simp
    · exact s.runHeld_ne_refuse r
  · simp

/-- In a legal configuration every action has a meaning. -/
theorem State.nextAction_ne_refuse {s : State} (legal : s.cfg.legal = true) (r : Refusal) :
    s.nextAction ≠ .refuse r := by
  unfold State.nextAction
  rw [if_pos legal]
  split
  · simp
  · simp
  · exact s.tick.offered_ne_refuse _ _ r
  · exact State.paused_ne_refuse _ r
  · exact s.tick.alone_ne_refuse r

/-- Settles O17: outside R9 the step is refused by name; in a legal configuration an instruction answers a next state
and everything else does too, or stops. -/
theorem illegalConfigurationIsRefused : Obligations.IllegalConfigurationIsRefused := by
  intro s
  refine ⟨fun illegal => by simp [step, State.nextAction, illegal], fun legal r hstep => ?_⟩
  unfold step at hstep
  split at hstep
  · rw [exec_eq_next] at hstep
    exact nomatch hstep
  · exact nomatch hstep
  · exact nomatch hstep
  · exact s.nextAction_ne_refuse legal _ ‹_›

end Sys2Proof.Machine
end

section
/-! PROOFS. The obligations of 10_state.md: what a step does for each action of the host, what an operation does to
`LIFE`, what it leaves in `TEMP` and on the lines, and the operations that only draw. -/
namespace Sys2Proof.Machine

/-! ### A step, by what the host does (R29, R39 to R41, R250) -/

section
variable {s : State} {rest : List HostAct}

theorem step_reset (legal : s.cfg.legal = true) (host : s.host = .reset :: rest) :
    step s = .next (s.tick.withHost rest).doReset := by
  simp [step, State.nextAction, legal, host]

theorem step_read {i : Nat} (legal : s.cfg.legal = true) (host : s.host = .read i :: rest) :
    step s = .next ((s.tick.withHost rest).serveRead i) := by
  simp [step, State.nextAction, legal, host]

/-- A byte that PSDC is ready for is taken (R39). -/
theorem step_send_ready {b : Byte} (legal : s.cfg.legal = true) (ready : s.ph = .idle ∨ s.ph = .collect)
    (host : s.host = .send b :: rest) : step s = .next ((s.tick.withHost rest).accept b) := by
  rcases ready with ph | ph <;> simp [step, State.nextAction, State.offered, legal, host, ph]

/-- A byte offered to a hung PSDC is not taken (R138, log 9). -/
theorem step_send_hung {b : Byte} (legal : s.cfg.legal = true) (ph : s.ph = .exec) (hung : s.wait.isSome = true)
    (host : s.host = .send b :: rest) : step s = .next (s.tick.withHost rest) := by
  simp [step, State.nextAction, State.offered, legal, host, ph, hung]

/-- With nothing to run, or a transaction in flight, a pause passes. -/
theorem State.paused_of_still (still : s.ph ≠ .exec ∨ s.wait.isSome = true) : s.paused = .go s := by
  rcases s.paused_cases with ⟨-, eq⟩ | ⟨ph, idle, -⟩
  · exact eq
  · exact absurd still (by simp [ph, idle])

theorem step_pause_still (legal : s.cfg.legal = true) (still : s.ph ≠ .exec ∨ s.wait.isSome = true)
    (host : s.host = .pause :: rest) : step s = .next (s.tick.withHost rest) := by
  have paused : (s.tick.withHost rest).paused = .go (s.tick.withHost rest) := State.paused_of_still still
  simp [step, State.nextAction, legal, host, paused]

theorem step_silent_still (legal : s.cfg.legal = true) (ph : s.ph ≠ .exec) (host : s.host = []) :
    step s = .next s.tick := by
  have paused : s.tick.paused = .go s.tick := State.paused_of_still (.inl ph)
  simp [step, State.nextAction, State.alone, State.busy, legal, host, ph, paused]

/-- The stuck state of R138 has no step of its own. -/
theorem step_silent_hung (legal : s.cfg.legal = true) (ph : s.ph = .exec) (hung : s.wait.isSome = true)
    (host : s.host = []) : step s = .fault .busHung := by
  simp [step, State.nextAction, State.alone, State.busy, legal, host, ph, hung]

theorem State.paused_of_exec (ph : s.ph = .exec) (idle : s.wait = none) : s.paused = s.runHeld := by
  simp [State.paused, ph, idle]

theorem State.runHeld_of_fetch {i : Instr} (fetch : s.fetch = some i) : s.runHeld = .run i s := by
  simp [State.runHeld, fetch]

/-- In EXEC with nothing in flight, a host that is silent, offers a byte or pauses lets PSDC run what it holds. -/
theorem step_exec {i : Instr} (legal : s.cfg.legal = true) (ph : s.ph = .exec) (idle : s.wait = none)
    (fetch : s.fetch = some i)
    (host : (s.host = [] ∧ rest = []) ∨ (∃ b r, s.host = .send b :: r ∧ rest = s.host) ∨ s.host = .pause :: rest) :
    step s = exec i (s.tick.withHost rest) := by
  have same : s.tick.withHost s.host = s.tick := rfl
  have held : s.tick.runHeld = .run i s.tick := State.runHeld_of_fetch fetch
  have paused (h : List HostAct) : (s.tick.withHost h).paused = .run i (s.tick.withHost h) :=
    (State.paused_of_exec (s := s.tick.withHost h) ph idle).trans (State.runHeld_of_fetch fetch)
  rcases host with ⟨host, rfl⟩ | ⟨b, r, host, rfl⟩ | host
  · have silent := paused s.host
    rw [same] at silent
    rw [← host, same]
    simp [step, State.nextAction, State.alone, legal, host, idle, silent]
  · rw [same]
    simp [step, State.nextAction, State.offered, legal, host, ph, idle, held]
  · simp [step, State.nextAction, legal, host, paused]

end

/-! ### The ports -/

theorem State.accept_incomplete {s : State} {b : Byte} (h : parsePacket (s.pkt ++ [b]) = .incomplete) :
    s.accept b = { s with ph := .collect, pkt := s.pkt ++ [b] } := by
  unfold State.accept
  rw [h]

theorem State.accept_complete {s : State} {b : Byte} {i : Instr} {r : List Byte}
    (h : parsePacket (s.pkt ++ [b]) = .complete i r) :
    s.accept b = { s with ph := .exec, pkt := s.pkt ++ [b] } := by
  unfold State.accept
  rw [h]

/-- A byte of the framebuffer, when PSDC is not busy (R41). -/
theorem State.serveRead_inside {s : State} {i : Nat} (ph : s.ph ≠ .exec) (lt : i < s.cfg.len) :
    s.serveRead i = { s with rdata := some (s.fbRead i) } := by
  simp [State.serveRead, State.busy, ph, lt]

/-- While busy or outside the framebuffer the port returns an unspecified byte (R41). -/
theorem State.serveRead_unspecified {s : State} {i : Nat} (h : s.ph = .exec ∨ s.cfg.len ≤ i) :
    s.serveRead i = { s with rdata := some (Config.portByte s.draws), draws := s.draws + 1 } := by
  rcases h with ph | le
  · simp [State.serveRead, State.busy, ph]
  · simp [State.serveRead, Nat.not_lt.2 le]

theorem State.fetch_packet {s : State} {i : Instr} {rest : List Byte} (wire : s.wire = [])
    (h : parsePacket s.pkt = .complete i rest) : s.fetch = some i := by
  simp [State.fetch, wire, h, Parse.instr?]

theorem State.fetch_wire {s : State} {i : Instr} {rest : List Byte} (wire : s.wire ≠ [])
    (h : parseWire s.cfg.opc s.wire = .complete i rest) : s.fetch = some i := by
  obtain ⟨b, r, hw⟩ := List.exists_cons_of_ne_nil wire
  rw [hw] at h
  simp [State.fetch, hw, h, Parse.instr?]

/-- Settles O8: the byte is taken, and the packet decoder says where it leads. -/
theorem bytesMoveThePhase : Obligations.BytesMoveThePhase := by
  intro s b rest legal ready host
  rw [step_send_ready legal ready host]
  refine ⟨fun h => ?_, fun i r h => ?_⟩
  · rw [State.accept_incomplete (s := s.tick.withHost rest) h]; rfl
  · rw [State.accept_complete (s := s.tick.withHost rest) h]; rfl

/-- Settles O9: either slot decodes to what EXEC fetches. -/
theorem stepRunsTheDecodedInstruction : Obligations.StepRunsTheDecodedInstruction := by
  intro s i rest h legal ph idle host
  exact ⟨fun wire parsed => step_exec legal ph idle (State.fetch_packet wire parsed) host,
    fun wire parsed => step_exec legal ph idle (State.fetch_wire wire parsed) host⟩

/-- Settles O12: what the port serves is decided by the phase and the index. -/
theorem readBackPortReadsWithoutSideEffect : Obligations.ReadBackPortReadsWithoutSideEffect := by
  intro s i rest legal host
  rw [step_read legal host]
  refine ⟨fun ph lt => ?_, fun h => ?_⟩
  · rw [State.serveRead_inside (s := s.tick.withHost rest) ph lt]; rfl
  · rw [State.serveRead_unspecified (s := s.tick.withHost rest) h]; rfl

/-- Settles O16: PSDC has nothing to run outside EXEC. -/
theorem quietHostLeavesIdleAlone : Obligations.QuietHostLeavesIdleAlone := fun _ legal ph =>
  ⟨fun host => step_silent_still legal ph host, fun _ host => step_pause_still legal (.inl ph) host⟩

/-- Settles O55: every host action on a hung PSDC, one by one. -/
theorem hungPsdcWaitsUntilReset : Obligations.HungPsdcWaitsUntilReset := by
  intro s legal ph hung
  refine ⟨step_silent_hung legal ph hung, fun b rest host => step_send_hung legal ph hung host,
    fun rest host => step_pause_still legal (.inr hung) host, fun i rest host => ?_, fun rest host => ?_⟩
  · rw [step_read legal host, State.serveRead_unspecified (s := s.tick.withHost rest) (.inl ph)]; rfl
  · exact ⟨_, step_reset legal host, rfl, rfl, rfl⟩

/-! ### Status outputs and reset (R29 to R31, R36, R40) -/

/-- Settles O15: each output is the test of the phase, and the codes are their tables. -/
theorem statusOutputsFollowTheState : Obligations.StatusOutputsFollowTheState := by
  refine ⟨fun s => ⟨decide_eq_true_iff, decide_eq_true_iff, ?_⟩, ⟨rfl, rfl, rfl, rfl⟩, rfl, rfl, rfl⟩
  simp [State.cmdReady]

/-- Settles O13: the state of R36, with what reset leaves unspecified taken from a new draw. -/
theorem resetGivesTheResetValues : Obligations.ResetGivesTheResetValues := by
  intro s rest legal host
  exact ⟨_, step_reset legal host, rfl, rfl, rfl, rfl, rfl, rfl, rfl, rfl, rfl, rfl, rfl, rfl, rfl, rfl, rfl, rfl,
    rfl, rfl, fun _ => rfl, rfl, rfl, rfl⟩

/-- A code has a pattern exactly when it is listed. -/
theorem tableFind_isSome_iff {t : GlyphTable} {ch : Byte} :
    (tableFind t ch).isSome = true ↔ ch ∈ t.map Prod.fst := by
  induction t with
  | nil => simp [tableFind]
  | cons e t ih =>
    obtain ⟨k, rows⟩ := e
    by_cases h : k = ch
    · simp [tableFind, h]
    · simp only [tableFind, if_neg h, ih, List.map_cons, List.mem_cons, Ne.symm h, false_or]

/-- `Z` has no pattern: it is none of the listed characters, and the free entries leave it out (R25). -/
theorem initialGlyphs_absent : tableFind initialGlyphs 0x5A = none := by
  refine not_isSome fun found => ?_
  obtain ⟨e, he, code⟩ := List.mem_map.1 (tableFind_isSome_iff.1 found)
  rcases List.mem_append.1 he with listed | free
  · have mem : (0x5A : Byte) ∈ 0x20 :: requiredChars := by
      rw [← code]
      simpa [Function.comp_def] using List.mem_map_of_mem (f := Prod.fst) listed
    exact absurd mem (by decide)
  · exact absurd code (by simpa using (List.mem_filter.1 free).2)

theorem initialGlyphs_present {ch : Byte} (h : ch ∈ requiredChars) : (tableFind initialGlyphs ch).isSome = true :=
  tableFind_isSome_iff.2 (List.mem_map.2
    ⟨(ch, Config.glyphRows ch), List.mem_append_left _ (List.mem_cons_of_mem _ (List.mem_map_of_mem h)), rfl⟩)

/-- Settles O14: the table of R36, and the glyph table by its listed codes. -/
theorem resetStateHasTheResetValues : Obligations.ResetStateHasTheResetValues :=
  ⟨rfl, rfl, rfl, rfl, rfl, rfl, rfl, rfl, rfl, by decide, rfl, initialGlyphs_absent,
    fun _ => initialGlyphs_present⟩

/-- Settles O19: the reset state is a state after reset, and every such state meets the invariants. -/
theorem resetMeetsTheInvariant : Obligations.ResetMeetsTheInvariant := by
  have after : State.reset = State.doReset { State.reset with draws := 0 } := rfl
  exact ⟨after ▸ State.doReset_inv _, after ▸ State.doReset_busInv _⟩

/-! ### What an operation leaves to the host's side, and `BUSERR` (R30, R39) -/

theorem State.Moved.host {s t : State} (h : s.Moved t) : t.host = s.host := by rw [h.1]
theorem State.Moved.rsp {s t : State} (h : s.Moved t) : t.rsp = s.rsp := by rw [h.1]
theorem State.Moved.busErr {s t : State} (h : s.Moved t) : t.busErr = s.busErr := by rw [h.1]

@[simp] theorem Run.next_host (r : Run) : r.next.host = r.state.host := by cases r <;> rfl
@[simp] theorem Run.next_life (r : Run) : r.next.life = r.state.life := by cases r <;> rfl

/-- However an operation ends, it clears no error (R30). -/
theorem Run.next_busErr {r : Run} (h : r.state.busErr = true) : r.next.busErr = true := by
  cases r with
  | ok t => exact h
  | failed t => rfl
  | hung t => exact h

/-- No operation takes an action of the host. -/
theorem exec_host {i : Instr} {s t : State} (h : exec i s = .next t) : t.host = s.host := by
  rw [next_of_exec h, Run.next_host]
  exact (bodyOf_moved i s).host

theorem exec_busErr {i : Instr} {s t : State} (h : exec i s = .next t) (err : s.busErr = true) :
    t.busErr = true := by
  rw [next_of_exec h]
  exact Run.next_busErr ((bodyOf_moved i s).busErr.trans err)

theorem State.PortMoved.busErr {s t : State} (h : s.PortMoved t) : t.busErr = s.busErr := by rw [h]

/-- Settles O10: such a step is one that runs the operation, and no operation takes an action of the host. -/
theorem byteWaitsWhileExecuting : Obligations.ByteWaitsWhileExecuting := by
  intro s s' b rest ph idle host hstep
  obtain ⟨-, hc⟩ := step_next_cases hstep
  cases hc with
  | reset _ h _ => exact nomatch host.symm.trans h
  | read _ _ h _ => exact nomatch host.symm.trans h
  | pause _ h _ _ => exact nomatch host.symm.trans h
  | idle h _ _ => exact nomatch host.symm.trans h
  | accept _ _ _ ready _ => exact absurd ready (by simp [ph])
  | deaf _ _ _ deaf _ => exact absurd deaf (by simp [ph, idle])
  | run i h kept _ _ _ he =>
    rcases kept with rfl | h
    · exact (exec_host he).trans rfl
    · exact nomatch host.symm.trans h

/-- Settles O22: the ports do not touch `BUSERR`, no operation clears it, and reset does. -/
theorem busErrIsSticky : Obligations.BusErrIsSticky := by
  refine ⟨fun s s' hstep err noReset => ?_, fun s s' rest host hstep => ?_⟩
  · obtain ⟨-, hc⟩ := step_next_cases hstep
    cases hc with
    | reset rest host _ => exact absurd host (noReset rest)
    | read i rest _ eq => exact eq ▸ (State.serveRead_portMoved _ i).busErr.trans err
    | accept b rest _ _ eq => exact eq ▸ (State.accept_portMoved _ b).busErr.trans err
    | deaf _ _ _ _ eq => exact eq ▸ err
    | idle _ _ eq => exact eq ▸ err
    | pause _ _ _ eq => exact eq ▸ err
    | run i rest _ _ _ _ he => exact exec_busErr he err
  · obtain ⟨legal, -⟩ := step_next_cases hstep
    rw [step_reset legal host] at hstep
    injection hstep with hstep
    rw [← hstep]; rfl

/-! ### The operations that only draw (R54, R221, R259) -/

/-- The body of a drawing operation changes the framebuffer only, and leaves no pen when it is a string's (R27). -/
theorem bodyOf_drawing {i : Instr} (drawing : isDrawing i = true) (s : State) :
    ∃ fb, bodyOf i s = .ok { s with fb := fb, pen := if isString i then none else s.pen } := by
  cases i with
  | fill c => exact ⟨_, rfl⟩
  | setpx x y c => exact ⟨_, congrArg Run.ok (s.setPx_only_fb _ _ c)⟩
  | scroll dx dy => exact ⟨_, rfl⟩
  | glyphs ch x y c sc => exact ⟨_, congrArg Run.ok (s.drawGlyph_only_fb ch _ _ c _)⟩
  | texts t x y =>
    exact ⟨_, (congrArg (fun u : State => Run.ok (u.setPen none)) (textsLoop_only_fb_pen _ _ t _)).trans rfl⟩
  | text t x y c =>
    exact ⟨_, (congrArg (fun u : State => Run.ok (u.setPen none)) (textLoop_only_fb_pen _ _ c t _)).trans rfl⟩
  | _ => exact nomatch drawing

/-- Settles O27: the frame of the body, then the end with OK. -/
theorem drawingFrame : Obligations.DrawingFrame := by
  intro i s drawing
  obtain ⟨fb, body⟩ := bodyOf_drawing drawing s
  exact ⟨fb, by rw [exec_eq_next, body]; rfl⟩

/-- An absent character is looked up as the blank space (R25, R190). -/
theorem lookupGlyph_absent {c : Cfg} (ok : c.glyphOk) {ch : Byte} (absent : tableFind c.glyph ch = none) :
    lookupGlyph c ch = blankRows := by
  obtain ⟨space, -⟩ := ok
  simp only [lookupGlyph, absent, space, Option.getD_some]

/-- Settles O35: the character paints as the space, which is blank. -/
theorem absentGlyphPaintsNothing : Obligations.AbsentGlyphPaintsNothing := by
  intro s ch x y c scale ok absent
  have absent : tableFind s.cfg.glyph ch = none := by
    rcases absent with absent | rfl
    · exact absent
    · exact ok.2.1
  have body : bodyOf (.glyphs ch x y c scale) s = .ok s := by
    simp [bodyOf, State.drawGlyph, lookupGlyph_absent ok absent, glyphPixels_blank, State.paint]
  exact ⟨s.complete, by rw [exec_eq_next, body, Run.next_ok], rfl, rfl⟩

/-! ### `LIFE` (R31) -/

theorem Run.andThen_cases (r : Run) (f : State → State) :
    (∃ t, r = .ok t ∧ r.andThen f = .ok (f t)) ∨ r.andThen f = r := by
  cases r with
  | ok t => exact .inl ⟨t, rfl, rfl⟩
  | failed t => exact .inr rfl
  | hung t => exact .inr rfl

/-- INIT moves `LIFE` at its very end or not at all (R161). -/
theorem State.initBody_life (s : State) :
    s.initBody.state.life = s.life ∨ ∃ t, s.initBody = .ok t ∧ t.life = .on := by
  have walked := walk_moved (initTable s.cfg) s
  unfold State.initBody
  rcases Run.andThen_cases ((walk (initTable s.cfg) s).bind fun s => (s.fillFb 0x00).showBody)
    (fun s => { s with life := .on }) with ⟨t, -, eq⟩ | eq
  · exact .inr ⟨_, eq, rfl⟩
  · left
    rw [eq]
    rcases Run.bind_state (walk (initTable s.cfg) s) (fun s => (s.fillFb 0x00).showBody) with ⟨u, hu, eq⟩ | eq
    · rw [hu] at walked
      rw [eq]
      exact (State.showBody_moved _).life.trans walked.life
    · rw [eq]
      exact walked.life

/-- The three moves of `LIFE` an operation makes (R31). -/
def LifeMove (i : Instr) (l : Life) : Prop :=
  (i = .pwron ∧ l = .powered) ∨ (i = .init ∧ l = .on) ∨ (i = .pwroff ∧ l = .sleep)

/-- A body keeps `LIFE`, or it is one of the three and ran to its end. -/
theorem bodyOf_life (i : Instr) (s : State) :
    (bodyOf i s).state.life = s.life ∨ ∃ t, bodyOf i s = .ok t ∧ LifeMove i t.life := by
  have drawn (hi : isDrawing i = true) : (bodyOf i s).state.life = s.life := by
    obtain ⟨fb, body⟩ := bodyOf_drawing hi s
    rw [body]; rfl
  cases i with
  | fill | setpx | scroll | glyphs | texts | text => exact .inl (drawn rfl)
  | pwron =>
    have life : s.powerOn.life = .powered := by unfold State.powerOn; split <;> rfl
    exact .inr ⟨s.powerOn, rfl, .inl ⟨rfl, life⟩⟩
  | init => exact (State.initBody_life s).imp_right fun ⟨t, body, life⟩ => ⟨t, body, .inr (.inl ⟨rfl, life⟩)⟩
  | pwroff =>
    rcases Run.andThen_cases (s.command (.setDisp 0)) (fun s => { s with life := .sleep }) with ⟨t, -, eq⟩ | eq
    · exact .inr ⟨_, eq, .inr (.inr ⟨rfl, rfl⟩)⟩
    · exact .inl ((congrArg (fun r => r.state.life) eq).trans (sendBytes_moved _ _).life)
  | showFrame => exact .inl s.showBody_moved.life
  | _ => exact .inl (sendBytes_moved _ _).life

/-- Settles O24: the end of an operation keeps `LIFE`, and a body that moves it ran to its end. -/
theorem lifeMovesOnlyWhenItsOperationsSucceed : Obligations.LifeMovesOnlyWhenItsOperationsSucceed := by
  intro i s t he moved
  obtain rfl := next_of_exec he
  rcases bodyOf_life i s with kept | ⟨u, body, move⟩
  · exact absurd ((Run.next_life _).trans kept) moved
  · rw [body]
    exact ⟨rfl, move⟩

/-- The state with another `LIFE`. -/
def State.withLife (s : State) (l : Life) : State := { s with life := l }

/-- The end of a piece with another `LIFE`. -/
def Run.withLife (r : Run) (l : Life) : Run :=
  match r with
  | .ok s => .ok (s.withLife l)
  | .failed s => .failed (s.withLife l)
  | .hung s => .hung (s.withLife l)

theorem Run.next_withLife (r : Run) (l : Life) : (r.withLife l).next = r.next.withLife l := by cases r <;> rfl

/-- The rest of an operation runs after a piece with another `LIFE` as it does after that piece. -/
theorem Run.bind_withLife (r : Run) {k : State → Run} {l : Life}
    (hk : ∀ t, r = .ok t → k (t.withLife l) = (k t).withLife l) :
    (r.withLife l).bind k = (r.bind k).withLife l := by
  cases r with
  | ok t => exact hk t rfl
  | failed t => rfl
  | hung t => rfl

theorem Run.onAnswer_withLife (r : Run) {f : State → State} {l : Life}
    (hf : ∀ t : State, f (t.withLife l) = (f t).withLife l) :
    (r.withLife l).onAnswer f = (r.onAnswer f).withLife l := by
  cases r with
  | ok t => exact congrArg Run.ok (hf t)
  | failed t => exact congrArg Run.failed (hf t)
  | hung t => rfl

section
variable (s : State) (l : Life)

theorem State.unansweredTxn_withLife (e : Event) (r : List Reply) :
    (s.withLife l).unansweredTxn e r = (s.unansweredTxn e r).withLife l := by
  unfold State.unansweredTxn
  rw [show (s.withLife l).cfg = s.cfg from rfl]
  split <;> rfl

theorem State.busTxn_withLife (e : Event) : (s.withLife l).busTxn e = (s.busTxn e).withLife l := by
  unfold State.busTxn
  rw [show (s.withLife l).bus = s.bus from rfl]
  split
  · rfl
  · rfl
  · exact State.unansweredTxn_withLife (s.emit e) l e _
  · exact State.unansweredTxn_withLife (s.emit e) l e _

theorem State.csFrame_withLife (v : Bit) (bs : List Byte) :
    (s.withLife l).csFrame v bs = (s.csFrame v bs).withLife l := by
  unfold State.csFrame
  rw [← Run.onAnswer_withLife _ fun _ => rfl, ← State.busTxn_withLife]
  rfl

theorem State.cmd_withLife (b : Byte) : (s.withLife l).cmd b = (s.cmd b).withLife l := by
  unfold State.cmd
  rw [show (s.withLife l).cfg = s.cfg from rfl]
  split
  · exact State.busTxn_withLife (s.setTemp s.cfg.ctrlCmd b) l _
  · exact State.csFrame_withLife s l 0 [b]

theorem State.data_withLife (bs : List Byte) : (s.withLife l).data bs = (s.data bs).withLife l := by
  unfold State.data
  rw [show (s.withLife l).cfg = s.cfg from rfl]
  split
  · exact State.busTxn_withLife s l _
  · exact State.csFrame_withLife s l 1 bs

theorem sendBytes_withLife (bs : List Byte) : sendBytes bs (s.withLife l) = (sendBytes bs s).withLife l := by
  induction bs generalizing s with
  | nil => rfl
  | cons b bs ih =>
    unfold sendBytes
    rw [State.cmd_withLife]
    exact Run.bind_withLife _ fun t _ => ih t

theorem State.showBody_withLife : (s.withLife l).showBody = s.showBody.withLife l := by
  unfold State.showBody
  rw [walk_eq_sendBytes, walk_eq_sendBytes, show (s.withLife l).cfg = s.cfg from rfl, sendBytes_withLife]
  exact Run.bind_withLife _ fun t _ => State.data_withLife t l t.fbBytes

theorem State.setPx_withLife (x y : Int) (c : Bit) : (s.withLife l).setPx x y c = (s.setPx x y c).withLife l := by
  unfold State.setPx
  rw [show (s.withLife l).cfg = s.cfg from rfl]
  split <;> rfl

theorem State.paint_withLife (x y : Int) (c : Bit) (ps : List (Nat × Nat)) :
    State.paint x y c ps (s.withLife l) = (State.paint x y c ps s).withLife l := by
  induction ps generalizing s with
  | nil => rfl
  | cons p ps ih =>
    unfold State.paint
    rw [State.setPx_withLife, ih]

theorem textsLoop_withLife (x y : Int) (t : List Byte) :
    textsLoop x y t (s.withLife l) = (textsLoop x y t s).withLife l := by
  induction t generalizing s with
  | nil => rfl
  | cons ch t ih =>
    unfold textsLoop State.drawGlyph
    rw [State.paint_withLife, ← ih]
    rfl

theorem textLoop_withLife (x y : Int) (c : Bit) (t : List Byte) :
    textLoop x y c t (s.withLife l) = (textLoop x y c t s).withLife l := by
  induction t generalizing s with
  | nil => rfl
  | cons ch t ih =>
    unfold textLoop State.drawFontChar
    rw [State.paint_withLife, ← ih]
    rfl

/-- PWRON ends the same from every `LIFE`. -/
theorem State.powerOn_withLife : (s.withLife l).powerOn = s.powerOn := by
  unfold State.powerOn
  rw [show (s.withLife l).cfg = s.cfg from rfl]
  split <;> rfl

/-- After the last piece of INIT or PWROFF `LIFE` is set, so that it is either the new one or the one of the start. -/
theorem Run.andThen_withLife (r : Run) (m : Life) :
    ∃ k, (r.withLife l).andThen (fun s => s.withLife m) = (r.andThen fun s => s.withLife m).withLife k := by
  cases r with
  | ok t => exact ⟨m, rfl⟩
  | failed t => exact ⟨l, rfl⟩
  | hung t => exact ⟨l, rfl⟩

theorem State.initBody_withLife : ∃ m, (s.withLife l).initBody = s.initBody.withLife m := by
  unfold State.initBody
  rw [walk_eq_sendBytes, walk_eq_sendBytes, show (s.withLife l).cfg = s.cfg from rfl, sendBytes_withLife,
    Run.bind_withLife _ fun t _ => State.showBody_withLife (t.fillFb 0x00) l]
  exact Run.andThen_withLife l _ .on

/-- From another `LIFE` the body of every instruction comes to the same end, but for `LIFE` (R31). -/
theorem bodyOf_withLife (i : Instr) : ∃ m, bodyOf i (s.withLife l) = (bodyOf i s).withLife m := by
  cases i with
  | fill c => exact ⟨l, rfl⟩
  | setpx x y c => exact ⟨l, congrArg Run.ok (State.setPx_withLife s l _ _ c)⟩
  | scroll dx dy => exact ⟨l, rfl⟩
  | pwron => exact ⟨s.powerOn.life, congrArg Run.ok (State.powerOn_withLife s l)⟩
  | init => exact State.initBody_withLife s l
  | showFrame => exact ⟨l, State.showBody_withLife s l⟩
  | pwroff =>
    obtain ⟨m, eq⟩ := Run.andThen_withLife l (s.command (.setDisp 0)) .sleep
    refine ⟨m, eq ▸ ?_⟩
    exact congrArg (fun r => r.andThen fun s => s.withLife .sleep) (sendBytes_withLife s l _)
  | glyphs ch x y c sc => exact ⟨l, congrArg Run.ok (State.paint_withLife s l _ _ c _)⟩
  | texts t x y =>
    exact ⟨l, congrArg (fun u : State => Run.ok (u.setPen none)) (textsLoop_withLife (s.setPen (some 0)) l _ _ t)⟩
  | text t x y c =>
    exact ⟨l, congrArg (fun u : State => Run.ok (u.setPen none)) (textLoop_withLife (s.setPen (some 0)) l _ _ c t)⟩
  | _ => exact ⟨l, sendBytes_withLife s l _⟩

end

/-- Settles O25: the two bodies end alike, and the ends of an operation do not read `LIFE`. -/
theorem lifeGuardsNothing : Obligations.LifeGuardsNothing := by
  intro i s t l he
  obtain rfl := next_of_exec he
  obtain ⟨m, body⟩ := bodyOf_withLife s l i
  refine ⟨_, exec_eq_next i (s.withLife l), ?_⟩
  rw [body, Run.next_withLife]
  rfl

/-! ### `TEMP`, the lines and the clock after answered transactions (R24, R131 to R134) -/

/-- What answered transactions leave in the registers of the transports: `b` is the byte of the last `Cmd`, `v` the
level of DC in the last transaction, whatever it was. -/
structure TransportLeft (v : Bit) (b : Byte) (s t : State) : Prop where
  cfg : t.cfg = s.cfg
  res : t.res = s.res
  reg : s.cfg.transport = .reg → t.temp0 = s.cfg.ctrlCmd ∧ t.temp1 = b ∧ t.csel = s.csel ∧ t.dc = s.dc ∧
    t.clkCfg = s.clkCfg
  cs : s.cfg.transport = .cs → t.temp0 = s.temp0 ∧ t.temp1 = s.temp1 ∧ t.dc = v ∧ t.csel = .deasserted ∧
    t.clkCfg = fixedClk

namespace TransportLeft

theorem cmd (s : State) (b : Byte) (a : Answer) (r : List Reply) : TransportLeft 0 b s (s.cmdAnswered b a r) := by
  unfold State.cmdAnswered
  cases h : s.cfg.transport with
  | reg => exact ⟨rfl, rfl, fun _ => ⟨rfl, rfl, rfl, rfl, rfl⟩, fun hc => nomatch h.symm.trans hc⟩
  | cs => exact ⟨rfl, rfl, fun hr => (nomatch h.symm.trans hr), fun _ => ⟨rfl, rfl, rfl, rfl, rfl⟩⟩

/-- A `Data` leaves `TEMP` as the last `Cmd` did (R132, R134). -/
theorem data {s t : State} {v : Bit} {b : Byte} (h : TransportLeft v b s t) (bs : List Byte) (a : Answer)
    (r : List Reply) : TransportLeft 1 b s (t.dataAnswered bs a r) := by
  unfold State.dataAnswered
  have same : t.cfg.transport = s.cfg.transport := by rw [h.cfg]
  split <;> rename_i ht <;> rw [same] at ht
  · exact ⟨h.cfg, h.res, h.reg, fun hc => nomatch ht.symm.trans hc⟩
  · refine ⟨h.cfg, h.res, fun hr => (nomatch ht.symm.trans hr), fun hc => ?_⟩
    obtain ⟨temp0, temp1, -⟩ := h.cs hc
    exact ⟨temp0, temp1, rfl, rfl, rfl⟩

theorem trans {s t u : State} {v w : Bit} {a b : Byte} (h1 : TransportLeft v a s t) (h2 : TransportLeft w b t u) :
    TransportLeft w b s u where
  cfg := h2.cfg.trans h1.cfg
  res := h2.res.trans h1.res
  reg hr := by
    obtain ⟨-, -, csel1, dc1, clk1⟩ := h1.reg hr
    obtain ⟨temp0, temp1, csel2, dc2, clk2⟩ := h2.reg (h1.cfg ▸ hr)
    exact ⟨h1.cfg ▸ temp0, temp1, csel2.trans csel1, dc2.trans dc1, clk2.trans clk1⟩
  cs hc := by
    obtain ⟨temp01, temp11, -⟩ := h1.cs hc
    obtain ⟨temp02, temp12, lines⟩ := h2.cs (h1.cfg ▸ hc)
    exact ⟨temp02.trans temp01, temp12.trans temp11, lines⟩

/-- How the operation ends does not touch these registers. -/
theorem next {s : State} {r : Run} {v : Bit} {b : Byte} (h : TransportLeft v b s r.state) :
    TransportLeft v b s r.next := by
  cases r <;> exact ⟨h.cfg, h.res, h.reg, h.cs⟩

end TransportLeft

@[simp] theorem Run.ofAnswer_state (a : Answer) (s : State) : (Run.ofAnswer a s).state = s := by cases a <;> rfl

/-- Commands that are all answered `Done` leave what the last of them leaves. -/
theorem sendBytes_left {bs : List Byte} {b : Byte} (last : bs.getLast? = some b) {s : State} {r : List Reply}
    (bus : s.bus = List.replicate bs.length .done ++ r) :
    ∃ t, sendBytes bs s = .ok t ∧ t.bus = r ∧ TransportLeft 0 b s t := by
  induction bs generalizing s with
  | nil => exact nomatch last
  | cons a bs ih =>
    have first := TransportLeft.cmd s a .done (List.replicate bs.length Reply.done ++ r)
    have sent : s.cmd a = .ok (s.cmdAnswered a .done (List.replicate bs.length Reply.done ++ r)) :=
      State.cmd_answered (a := .done) (by simpa [List.replicate_succ, Answer.reply] using bus) a
    unfold sendBytes
    rw [sent, Run.bind_ok]
    cases bs with
    | nil =>
      obtain rfl : a = b := by simpa using last
      exact ⟨_, rfl, by simp, first⟩
    | cons c bs =>
      obtain ⟨t, ht, rest, left⟩ := ih (by simpa using last) (State.cmdAnswered_bus _ _ _ _)
      exact ⟨t, ht, rest, first.trans left⟩

/-- The table's bytes of a command are what its body sends (R91, R93). -/
theorem CommandRow.bodyOf_eq {s : State} {i : Instr} {bs : List Byte} (row : CommandRow s.cfg.opc i bs) :
    bodyOf i s = sendBytes bs s := by
  have shifted : ∀ d : Bit, d.setWidth 8 <<< 3 = BitVec.ofNat 8 (8 * d.toNat) := by decide
  cases row with
  | setDisp | setStartLine | setSegRemap | setNormInv =>
    simp only [BitVec.ofNat_toNat]
    rfl
  | setComOutDir d =>
    rw [← shifted]
    rfl
  | _ => rfl

theorem CommandRow.ne_nil {o : Opc} {i : Instr} {bs : List Byte} (row : CommandRow o i bs) : bs ≠ [] := by
  cases row <;> simp

/-- Settles O50: the body sends the table's bytes, and the last of them is what `TEMP` keeps. -/
theorem regCommandWritesTemp : Obligations.RegCommandWritesTemp := by
  intro s i bs r row bus
  have last := List.getLast?_eq_some_getLast row.ne_nil
  obtain ⟨t, sent, -, left⟩ := sendBytes_left last bus
  refine ⟨t.complete, by rw [exec_eq_next, row.bodyOf_eq, sent, Run.next_ok], fun hr => ?_, left.cs⟩
  obtain ⟨temp0, temp1, lines⟩ := left.reg hr
  exact ⟨temp0, by rw [last, ← temp1]; rfl, lines⟩

/-- A flush whose `Data` is answered leaves `TEMP` with the last page and the lines of `Data` (R132, R134, R163). -/
theorem State.showBody_left {s : State} {a : Answer} {r : List Reply}
    (bus : s.bus = List.replicate 6 .done ++ a.reply :: r) :
    TransportLeft 1 (BitVec.ofNat 8 (s.cfg.pages - 1)) s s.showBody.state := by
  obtain ⟨t, sent, rest, left⟩ := sendBytes_left (bs := showBytes s.cfg) rfl bus
  unfold State.showBody
  rw [walk_eq_sendBytes, showTable_bytes, sent, Run.bind_ok, State.data_answered rest, Run.ofAnswer_state]
  exact left.data _ a r

/-- INIT ends with a flush (R161). -/
theorem State.initBody_left {s : State} {a : Answer} {r : List Reply}
    (bus : s.bus = List.replicate 31 .done ++ a.reply :: r) :
    TransportLeft 1 (BitVec.ofNat 8 (s.cfg.pages - 1)) s s.initBody.state := by
  obtain ⟨t, sent, rest, left⟩ := sendBytes_left (bs := initBytes s.cfg) rfl (s := s)
    (r := List.replicate 6 .done ++ a.reply :: r) bus
  have shown := State.showBody_left (s := t.fillFb 0x00) rest
  rw [show (t.fillFb 0x00).cfg = s.cfg from left.cfg] at shown
  have cleared : TransportLeft 0 (s.cfg.opc.setDisp ||| 1) s (t.fillFb 0x00) := ⟨left.cfg, left.res, left.reg, left.cs⟩
  have whole := cleared.trans shown
  unfold State.initBody
  rw [walk_eq_sendBytes, initTable_bytes, sent, Run.bind_ok]
  cases hr : (t.fillFb 0x00).showBody <;> rw [hr] at whole <;> exact ⟨whole.cfg, whole.res, whole.reg, whole.cs⟩

/-- Settles O45: both operations end with a flush, whose `Data` is the last transaction. -/
theorem dataSetsTheLinesAndLeavesTemp : Obligations.DataSetsTheLinesAndLeavesTemp := by
  intro i s k a r op bus
  have left : TransportLeft 1 (BitVec.ofNat 8 (s.cfg.pages - 1)) s (bodyOf i s).next := by
    rcases op with ⟨rfl, rfl⟩ | ⟨rfl, rfl⟩
    · exact (State.showBody_left bus).next
    · exact (State.initBody_left bus).next
  exact ⟨_, exec_eq_next i s, left.res, left.reg, left.cs⟩

/-! ### A transaction that is never answered (R138) -/

/-- What the bus does after a transaction that is never answered is the list without its entry. -/
theorem NeverAnswered.rest_eq {q r : List Reply} (h : NeverAnswered q r) : r = q.tail := by
  rcases h with rfl | ⟨rfl, rfl⟩ <;> rfl

/-- A piece whose transaction `k` is never answered waits there, where there is no timeout: the events before it and
those of the transaction up to the answer, and nothing after. -/
theorem Sends.hung_at {gs : List (List Event)} {s : State} {r : Run} (h : Sends gs s r) {k : Nat} {g : List Event}
    (at_k : gs[k]? = some g) (noTimeout : s.cfg.busTimeout = none) {q rest : List Reply} (never : NeverAnswered q rest)
    (bus : s.bus = List.replicate k Reply.done ++ q) :
    ∃ t, r = .hung t ∧ t.trace = s.trace ++ (gs.take k).flatten ++ unanswered s.cfg g ∧
      t.drawn = s.drawn ++ List.replicate k Answer.done ∧ t.bus = rest ∧ t.wait.isSome = true := by
  have lt : k < gs.length := (List.getElem?_eq_some_iff.1 at_k).1
  cases h with
  | @ok t _ _ _ bus' _ =>
    exfalso
    rw [bus, show gs.length = k + (gs.length - k - 1 + 1) by omega, List.replicate_add, List.append_assoc] at bus'
    exact never.ne_done _ (List.append_cancel_left bus')
  | @failed t q' m _ _ _ _ bus' fails _ =>
    exfalso
    obtain ⟨rfl, rfl⟩ := replicate_done_append_inj never.ne_done fails.ne_done (bus.symm.trans bus')
    exact fails.not_never noTimeout never
  | @hung t q' m g' at_m _ trace drawn bus' never' _ wait =>
    obtain ⟨rfl, rfl⟩ := replicate_done_append_inj never.ne_done never'.ne_done (bus.symm.trans bus')
    obtain rfl : g = g' := Option.some.inj (at_k.symm.trans at_m)
    exact ⟨t, rfl, trace, drawn, never'.rest_eq.trans never.rest_eq.symm, wait⟩

/-- Settles O54: the body waits at that transaction, and a body that waits has moved nothing but what it sent and
drew. -/
theorem unansweredTransactionHangsTheOperation : Obligations.UnansweredTransactionHangsTheOperation := by
  intro i s k g q r noTimeout at_k never bus
  have hi : i ≠ .pwron := by
    rintro rfl
    exact nomatch at_k
  obtain ⟨t, body, trace, drawn, rest, wait⟩ := (bodyOf_sends hi s).hung_at at_k noTimeout never bus
  have moved : s.Moved t := by simpa [body] using bodyOf_moved i s
  have life : t.life = s.life := by simpa [body] using bodyOf_life i s
  exact ⟨t.hang, by rw [exec_eq_next, body, Run.next_hung], trace, drawn, rest, rfl, moved.pkt, wait, moved.rsp,
    moved.busErr, life⟩

end Sys2Proof.Machine
end

section
/-! PROOFS. The obligations of 20_memory.md: which bytes of `FB` an instruction can change and which it can depend on,
what the serializer leaves in place, and what a flush puts into the memory of the informative receiver. -/
namespace Sys2Proof.Machine

/-! ### The bytes an instruction can change (R56) -/

/-- An index at or past `LEN` is never listed, so it reads as it did at reset. -/
theorem State.fbRead_outside {s : State} (below : Memory.below s.cfg.len s.fb) {k : Nat} (hk : s.cfg.len ≤ k) :
    s.fbRead k = s.fbUnwritten k := by
  rw [State.fbRead, Memory.read_eq_none_of_below below hk, Option.getD_none]

/-- Settles O28: every body keeps the listed bytes below `LEN`, and what an index past it reads as is the draw's. -/
theorem drawingStaysInsideTheFramebuffer : Obligations.DrawingStaysInsideTheFramebuffer := by
  intro i s t inv legal he
  obtain rfl := next_of_exec he
  have moved := bodyOf_moved i s
  have below : Memory.below s.cfg.len (bodyOf i s).next.fb := by
    obtain ⟨-, below⟩ := moved.fbOk legal ⟨inv.fbSorted, inv.fbBelow⟩
    rwa [moved.cfg, ← Run.next_fb] at below
  refine ⟨fun k hk => ?_, below⟩
  have cfg : (bodyOf i s).next.cfg = s.cfg := (Run.next_cfg _).trans moved.cfg
  have draw : (bodyOf i s).next.fbDraw = s.fbDraw := (Run.next_fbDraw _).trans moved.fbDraw
  rw [State.fbRead_outside (cfg ▸ below) (cfg ▸ hk), State.fbRead_outside inv.fbBelow hk, State.fbUnwritten,
    State.fbUnwritten, draw]

/-! ### What the serializer leaves in place (R54, R161, R167) -/

/-- Only the bus side, `FB` and `LIFE` have changed: all that the body of a serializer operation can move, but for the
reset line of PWRON. -/
def State.SerialMoved (s t : State) : Prop :=
  t = { s with
    fb := t.fb, life := t.life, temp0 := t.temp0, temp1 := t.temp1, csel := t.csel, dc := t.dc, clkCfg := t.clkCfg,
    trace := t.trace, drawn := t.drawn, bus := t.bus, wait := t.wait }

namespace State.SerialMoved

theorem trans {s t u : State} (h1 : s.SerialMoved t) (h2 : t.SerialMoved u) : s.SerialMoved u := by
  unfold State.SerialMoved at *
  rw [h2, h1]

theorem of_busMoved {s t : State} (h : s.BusMoved t) : s.SerialMoved t := by
  unfold State.SerialMoved
  rw [h.1]

theorem of_life (s : State) (l : Life) : s.SerialMoved { s with life := l } := rfl

theorem of_fillFb (s : State) (v : Byte) : s.SerialMoved (s.fillFb v) := rfl

theorem andThen {s : State} {r : Run} {f : State → State} (h : s.SerialMoved r.state)
    (hf : ∀ t : State, t.SerialMoved (f t)) : s.SerialMoved (r.andThen f).state := by
  cases r with
  | ok t => exact h.trans (hf t)
  | failed t => exact h
  | hung t => exact h

/-- How the operation ends is a matter of the phase, the packet, the response and the error flag. -/
theorem next {s : State} {r : Run} (h : s.SerialMoved r.state) : r.next = { s with
    fb := r.next.fb, life := r.next.life, temp0 := r.next.temp0, temp1 := r.next.temp1, csel := r.next.csel,
    dc := r.next.dc, clkCfg := r.next.clkCfg, trace := r.next.trace, drawn := r.next.drawn, bus := r.next.bus,
    wait := r.next.wait, ph := r.next.ph, pkt := r.next.pkt, wire := r.next.wire, rsp := r.next.rsp,
    busErr := r.next.busErr } := by
  unfold State.SerialMoved at h
  cases r with
  | ok t => rw [Run.next_ok, show t = _ from h]; rfl
  | failed t => rw [Run.next_failed, show t = _ from h]; rfl
  | hung t => rw [Run.next_hung, show t = _ from h]; rfl

end State.SerialMoved

/-- The serializer operations that do not touch the framebuffer: all but PWRON, a pulse, and INIT (R54, R93). -/
def isEmission (i : Instr) : Prop :=
  i = .showFrame ∨ (∃ v, i = .contrast v) ∨ (∃ b, i = .invert b) ∨ i = .pwroff ∨ i.isHost = false

/-- Such an operation moves the bus side and, PWROFF only, `LIFE`. -/
theorem bodyOf_emission {i : Instr} (h : isEmission i) (s : State) :
    s.SerialMoved (bodyOf i s).state ∧ (bodyOf i s).state.fb = s.fb ∧
      (i ≠ .pwroff → (bodyOf i s).state.life = s.life) := by
  have bus {r : Run} (moved : s.BusMoved r.state) :
      s.SerialMoved r.state ∧ r.state.fb = s.fb ∧ (i ≠ .pwroff → r.state.life = s.life) :=
    ⟨.of_busMoved moved, moved.fb, fun _ => moved.life⟩
  cases i with
  | showFrame => exact bus s.showBody_moved
  | pwroff =>
    have moved : s.BusMoved (s.command (.setDisp 0)).state := sendBytes_moved _ s
    refine ⟨State.SerialMoved.andThen (.of_busMoved moved) fun t => .of_life t .sleep, ?_, fun h => absurd rfl h⟩
    rcases Run.andThen_cases (s.command (.setDisp 0)) (fun s => { s with life := .sleep }) with ⟨t, ht, eq⟩ | eq
    · rw [ht] at moved
      exact (congrArg (fun r => r.state.fb) eq).trans moved.fb
    · exact (congrArg (fun r => r.state.fb) eq).trans moved.fb
  | fill | setpx | scroll | pwron | init | glyphs | texts | text => simp [isEmission, Instr.isHost] at h
  | _ => exact bus (sendBytes_moved _ s)

/-- Settles O51: the bodies move the bus side only, but for PWROFF's `LIFE`, and the end of an operation no byte of
`FB`. -/
theorem serializerFrame : Obligations.SerializerFrame := by
  intro i s t emission he
  obtain rfl := next_of_exec he
  obtain ⟨moved, fb, life⟩ := bodyOf_emission emission s
  have fb : (bodyOf i s).next.fb = s.fb := (Run.next_fb _).trans fb
  have frame := moved.next
  refine ⟨?_, fun hi => (Run.next_life _).trans (life hi),
    State.fbRead_congr fb ((Run.next_fbDraw _).trans (bodyOf_moved i s).fbDraw)⟩
  rw [fb] at frame
  exact frame

/-- What INIT can do: it stops in its table with only the bus side moved, or it fills `FB` with 0, moves the bus side
again, and sets `LIFE` or not (R161). -/
theorem State.initBody_cases (s : State) :
    s.BusMoved s.initBody.state ∨ ∃ u v, s.BusMoved u ∧ (u.fillFb 0x00).BusMoved v ∧
      s.initBody.state = { v with life := s.initBody.state.life } := by
  have walked := walk_moved (initTable s.cfg) s
  unfold State.initBody
  cases hw : walk (initTable s.cfg) s with
  | ok u =>
    rw [hw] at walked
    have shown := (u.fillFb 0x00).showBody_moved
    refine .inr ⟨u, _, walked, shown, ?_⟩
    rw [Run.bind_ok]
    cases (u.fillFb 0x00).showBody <;> rfl
  | failed u => rw [hw] at walked; exact .inl walked
  | hung u => rw [hw] at walked; exact .inl walked

/-- INIT moves the bus side and `LIFE`; `FB` it leaves as it was or fills with 0 (R161). -/
theorem State.initBody_serial (s : State) :
    s.SerialMoved s.initBody.state ∧ (s.initBody.state.fb = s.fb ∨ s.initBody.state.fb = (s.fillFb 0x00).fb) := by
  rcases s.initBody_cases with moved | ⟨u, v, walked, shown, eq⟩
  · exact ⟨.of_busMoved moved, .inl moved.fb⟩
  · have cleared : (u.fillFb 0x00).fb = (s.fillFb 0x00).fb := by
      rw [State.fillFb, State.fbSetAll_fb, walked.cfg]; rfl
    rw [eq]
    exact ⟨(((State.SerialMoved.of_busMoved walked).trans (.of_fillFb u 0x00)).trans (.of_busMoved shown)).trans
      (.of_life v _), .inr (shown.fb.trans cleared)⟩

/-- Settles O52: the body's frame, and a filled `FB` reads as 0 below `LEN`. -/
theorem initFrame : Obligations.InitFrame := by
  intro s t he
  obtain rfl := next_of_exec he
  obtain ⟨moved, fb⟩ := s.initBody_serial
  refine ⟨State.SerialMoved.next moved, fb.imp (Run.next_fb _).trans fun cleared k hk => ?_⟩
  have draw : (bodyOf .init s).next.fbDraw = s.fbDraw := (Run.next_fbDraw _).trans (bodyOf_moved .init s).fbDraw
  exact (State.fbRead_congr (s := s.fillFb 0x00) ((Run.next_fb _).trans cleared) draw k).trans
    (State.fbRead_fbSetAll s _ hk)

/-! ### A failed transaction (R137) -/

/-- Settles O53: a body whose transaction fails stops there, and a failed body has moved only the bus side, INIT
apart. -/
theorem failStopsTheOperationThere : Obligations.FailStopsTheOperationThere := by
  intro i s k r lt bus
  have hi : i ≠ .pwron := by
    rintro rfl
    exact absurd lt (Nat.not_lt_zero k)
  obtain ⟨t, body, trace, drawn, rest, wait⟩ := (bodyOf_sends hi s).failed_at lt (.inl rfl) bus
  have life : t.life = s.life := bodyOf_failed_life body
  exact ⟨t.raiseBusFailure, by rw [exec_eq_next, body, Run.next_failed], trace, drawn, rest, rfl, life,
    rfl, rfl, rfl, wait, fun hinit => (bodyOf_failed_moved hinit body).fb⟩

/-! ### The bytes an instruction can depend on (R54, R56) -/

/-- PWRON leaves `FB` as it is (R160). -/
theorem State.powerOn_fb (s : State) : s.powerOn.fb = s.fb := by
  unfold State.powerOn
  split
  · rfl
  · rw [State.resetPulse_eq]

/-- The state with another `FB`: other listed bytes, and another draw for the rest. -/
def State.withFb (s : State) (fb : List Host.Cell) (n : Nat) : State := { s with fb := fb, fbDraw := n }

@[simp] theorem State.withFb_cfg (s : State) (fb : List Host.Cell) (n : Nat) : (s.withFb fb n).cfg = s.cfg := rfl

theorem State.cmdAnswered_withFb (s : State) (b : Byte) (a : Answer) (r : List Reply) (fb : List Host.Cell) (n : Nat) :
    (s.withFb fb n).cmdAnswered b a r = (s.cmdAnswered b a r).withFb fb n := by
  unfold State.cmdAnswered
  rw [State.withFb_cfg]
  split <;> rfl

theorem State.cmdWaiting_withFb (s : State) (b : Byte) (r : List Reply) (fb : List Host.Cell) (n : Nat) :
    (s.withFb fb n).cmdWaiting b r = (s.cmdWaiting b r).withFb fb n := by
  unfold State.cmdWaiting
  rw [State.withFb_cfg]
  split <;> rfl

theorem State.dataAnswered_withFb (s : State) (bs : List Byte) (a : Answer) (r : List Reply) (fb : List Host.Cell)
    (n : Nat) :
    (s.withFb fb n).dataAnswered bs a r = (s.dataAnswered bs a r).withFb fb n := by
  unfold State.dataAnswered
  rw [State.withFb_cfg]
  split <;> rfl

theorem State.dataWaiting_withFb (s : State) (bs : List Byte) (r : List Reply) (fb : List Host.Cell) (n : Nat) :
    (s.withFb fb n).dataWaiting bs r = (s.dataWaiting bs r).withFb fb n := by
  unfold State.dataWaiting
  rw [State.withFb_cfg]
  split <;> rfl

theorem State.powerOn_withFb (s : State) (fb : List Host.Cell) (n : Nat) :
    (s.withFb fb n).powerOn = s.powerOn.withFb fb n := by
  unfold State.powerOn
  rw [State.withFb_cfg]
  split <;> rfl

/-- The two states differ at most in `FB`, and agree on every byte below `LEN`. -/
structure State.FbAgree (s u : State) : Prop where
  same : u = s.withFb u.fb u.fbDraw
  reads : ∀ k, k < s.cfg.len → u.fbRead k = s.fbRead k

/-- The two pieces come to the same kind of end, in states that agree. -/
inductive Run.FbAgree : Run → Run → Prop where
  | ok {s u : State} (h : s.FbAgree u) : Run.FbAgree (.ok s) (.ok u)
  | failed {s u : State} (h : s.FbAgree u) : Run.FbAgree (.failed s) (.failed u)
  | hung {s u : State} (h : s.FbAgree u) : Run.FbAgree (.hung s) (.hung u)

namespace State.FbAgree

section
variable {s u : State} (h : s.FbAgree u)
include h

theorem cfg : u.cfg = s.cfg := by rw [h.same]; rfl
theorem bus : u.bus = s.bus := by rw [h.same]; rfl

/-- `FB`, in index order, is the bytes below `LEN`. -/
theorem fbBytes : u.fbBytes = s.fbBytes := by
  unfold State.fbBytes
  rw [h.cfg]
  exact List.map_congr_left fun k hk => h.reads k (List.mem_range.1 hk)

/-- A change that reads and moves nothing of `FB` keeps the agreement. -/
theorem map {f : State → State} (hf : ∀ (s : State) (fb : List Host.Cell) (n : Nat),
    f (s.withFb fb n) = (f s).withFb fb n)
    (kept : ∀ s : State, (f s).cfg = s.cfg ∧ (f s).fb = s.fb ∧ (f s).fbDraw = s.fbDraw) : (f s).FbAgree (f u) := by
  obtain ⟨cfg, fb, draw⟩ := kept s
  obtain ⟨-, fb', draw'⟩ := kept u
  refine ⟨?_, fun k hk => ?_⟩
  · rw [fb', draw', ← hf, ← h.same]
  · rw [State.fbRead_congr fb' draw', State.fbRead_congr fb draw]
    exact h.reads k (cfg ▸ hk)

/-- What the bus side does is such a change, where it does not read `FB`. -/
theorem busMap {f : State → State} (hf : ∀ (s : State) (fb : List Host.Cell) (n : Nat),
    f (s.withFb fb n) = (f s).withFb fb n) (moved : ∀ s : State, s.BusMoved (f s)) : (f s).FbAgree (f u) :=
  h.map hf fun s => ⟨(moved s).cfg, (moved s).fb, (moved s).fbDraw⟩

/-- Equal bytes written at one place, or everywhere, keep it. -/
theorem fbWrite (i : Nat) (v : Byte) : (s.fbWrite i v).FbAgree (u.fbWrite i v) := by
  refine ⟨by rw [h.same]; rfl, fun k hk => ?_⟩
  by_cases eq : k = i
  · rw [eq, State.fbRead_fbWrite_same, State.fbRead_fbWrite_same]
  · rw [State.fbRead_fbWrite_other u v eq, State.fbRead_fbWrite_other s v eq]
    exact h.reads k hk

theorem fbSetAll (f : Nat → Byte) : (s.fbSetAll f).FbAgree (u.fbSetAll f) := by
  refine ⟨by rw [h.same]; rfl, fun k hk => ?_⟩
  rw [State.fbRead_fbSetAll u f (h.cfg ▸ hk), State.fbRead_fbSetAll s f hk]

theorem fillFb (v : Byte) : (s.fillFb v).FbAgree (u.fillFb v) := h.fbSetAll _

theorem setPen (p : Option Int) : (s.setPen p).FbAgree (u.setPen p) :=
  h.map (f := fun s => s.setPen p) (fun _ _ _ => rfl) fun _ => ⟨rfl, rfl, rfl⟩

theorem withLife (l : Life) : (s.withLife l).FbAgree (u.withLife l) :=
  h.map (f := fun s => s.withLife l) (fun _ _ _ => rfl) fun _ => ⟨rfl, rfl, rfl⟩

/-! #### Drawing, in a height R9 allows -/

section
variable (height : s.cfg.h % 8 = 0)
include height

theorem fbRead_pixelByte {x y : Int} (hr : inRange s.cfg x y = true) :
    u.fbRead (pixelByte s.cfg x y) = s.fbRead (pixelByte s.cfg x y) := h.reads _ (pixelByte_lt height hr)

theorem setPx (x y : Int) (c : Bit) : (s.setPx x y c).FbAgree (u.setPx x y c) := by
  unfold State.setPx
  rw [h.cfg]
  split
  · rw [h.fbRead_pixelByte height ‹_›]
    exact h.fbWrite _ _
  · exact h

theorem scrolled (dx dy : Int) : u.scrolled dx dy = s.scrolled dx dy := by
  funext x y
  unfold State.scrolled State.px
  rw [h.cfg]
  split
  · rw [h.fbRead_pixelByte height ‹_›]
  · rfl

theorem setAllPx_scrolled (dx dy : Int) :
    (s.setAllPx (s.scrolled dx dy)).FbAgree (u.setAllPx (u.scrolled dx dy)) := by
  unfold State.setAllPx
  rw [h.scrolled height, h.cfg]
  exact h.fbSetAll _

end

end

theorem paint {s u : State} (h : s.FbAgree u) (height : s.cfg.h % 8 = 0) (x y : Int) (c : Bit)
    (ps : List (Nat × Nat)) : (State.paint x y c ps s).FbAgree (State.paint x y c ps u) := by
  induction ps generalizing s u with
  | nil => exact h
  | cons p ps ih => exact ih (h.setPx height _ _ c) (by rw [State.setPx_cfg]; exact height)

theorem drawGlyph {s u : State} (h : s.FbAgree u) (height : s.cfg.h % 8 = 0) (ch : Byte) (x y : Int) (c : Bit)
    (scale : Nat) : (s.drawGlyph ch x y c scale).FbAgree (u.drawGlyph ch x y c scale) := by
  unfold State.drawGlyph
  rw [h.cfg]
  exact h.paint height x y c _

theorem drawFontChar {s u : State} (h : s.FbAgree u) (height : s.cfg.h % 8 = 0) (ch : Byte) (x y : Int) (c : Bit) :
    (s.drawFontChar ch x y c).FbAgree (u.drawFontChar ch x y c) := by
  unfold State.drawFontChar
  rw [h.cfg]
  exact h.paint height x y c _

theorem penPos {s u : State} (h : s.FbAgree u) : u.penPos = s.penPos := by rw [h.same]; rfl

theorem textsLoop {s u : State} (h : s.FbAgree u) (height : s.cfg.h % 8 = 0) (x y : Int) (t : List Byte) :
    (textsLoop x y t s).FbAgree (textsLoop x y t u) := by
  induction t generalizing s u with
  | nil => exact h
  | cons ch t ih =>
    unfold Machine.textsLoop
    rw [h.penPos, h.cfg]
    refine ih ((h.drawGlyph height ch _ y 1 2).setPen _) ?_
    rw [State.setPen_cfg, State.drawGlyph, State.paint_cfg]
    exact height

theorem textLoop {s u : State} (h : s.FbAgree u) (height : s.cfg.h % 8 = 0) (x y : Int) (c : Bit) (t : List Byte) :
    (textLoop x y c t s).FbAgree (textLoop x y c t u) := by
  induction t generalizing s u with
  | nil => exact h
  | cons ch t ih =>
    unfold Machine.textLoop
    rw [h.penPos]
    refine ih ((h.drawFontChar height ch _ y c).setPen _) ?_
    rw [State.setPen_cfg, State.drawFontChar, State.paint_cfg]
    exact height

/-! #### Transactions -/

section
variable {s u : State} (h : s.FbAgree u)
include h

/-- A `Cmd` goes by the configuration and the bus, which are the same. -/
theorem cmd (b : Byte) : (s.cmd b).FbAgree (u.cmd b) := by
  have answered (a : Answer) (r : List Reply) : (s.cmdAnswered b a r).FbAgree (u.cmdAnswered b a r) :=
    h.busMap (f := fun s => s.cmdAnswered b a r) (fun s => s.cmdAnswered_withFb b a r) fun s =>
      s.cmdAnswered_moved b a r
  have waiting (r : List Reply) : (s.cmdWaiting b r).FbAgree (u.cmdWaiting b r) :=
    h.busMap (f := fun s => s.cmdWaiting b r) (fun s => s.cmdWaiting_withFb b r) fun s =>
      s.cmdWaiting_moved b r
  rcases bus_cases s.cfg s.bus with ⟨r, hb⟩ | ⟨r, hb⟩ | ⟨r, hb, ht⟩
  · rw [State.cmd_answered (a := .done) hb, State.cmd_answered (a := .done) (h.bus.trans hb)]
    exact .ok (answered .done r)
  · rw [State.cmd_fails hb, State.cmd_fails (by rw [h.cfg, h.bus]; exact hb)]
    exact .failed (answered .fail r)
  · rw [State.cmd_unanswered hb ht, State.cmd_unanswered (h.bus ▸ hb) (h.cfg ▸ ht)]
    exact .hung (waiting r)

theorem data (bs : List Byte) : (s.data bs).FbAgree (u.data bs) := by
  have answered (a : Answer) (r : List Reply) : (s.dataAnswered bs a r).FbAgree (u.dataAnswered bs a r) :=
    h.busMap (f := fun s => s.dataAnswered bs a r) (fun s => s.dataAnswered_withFb bs a r) fun s =>
      s.dataAnswered_moved bs a r
  have waiting (r : List Reply) : (s.dataWaiting bs r).FbAgree (u.dataWaiting bs r) :=
    h.busMap (f := fun s => s.dataWaiting bs r) (fun s => s.dataWaiting_withFb bs r) fun s =>
      s.dataWaiting_moved bs r
  rcases bus_cases s.cfg s.bus with ⟨r, hb⟩ | ⟨r, hb⟩ | ⟨r, hb, ht⟩
  · rw [State.data_answered (a := .done) hb, State.data_answered (a := .done) (h.bus.trans hb)]
    exact .ok (answered .done r)
  · rw [State.data_fails hb, State.data_fails (by rw [h.cfg, h.bus]; exact hb)]
    exact .failed (answered .fail r)
  · rw [State.data_unanswered hb ht, State.data_unanswered (h.bus ▸ hb) (h.cfg ▸ ht)]
    exact .hung (waiting r)

end

end State.FbAgree

namespace Run.FbAgree

theorem bind {r q : Run} (h : r.FbAgree q) {k l : State → Run}
    (hk : ∀ s u : State, s.FbAgree u → (k s).FbAgree (l u)) : (r.bind k).FbAgree (q.bind l) := by
  cases h with
  | ok h => exact hk _ _ h
  | failed h => exact .failed h
  | hung h => exact .hung h

theorem andThen {r q : Run} (h : r.FbAgree q) {f : State → State}
    (hf : ∀ s u : State, s.FbAgree u → (f s).FbAgree (f u)) : (r.andThen f).FbAgree (q.andThen f) := by
  cases h with
  | ok h => exact .ok (hf _ _ h)
  | failed h => exact .failed h
  | hung h => exact .hung h

/-- The ends of an operation do not touch `FB`. -/
theorem next {r q : Run} (h : r.FbAgree q) : r.next.FbAgree q.next := by
  cases h with
  | ok h => exact h.map (f := State.complete) (fun _ _ _ => rfl) fun _ => ⟨rfl, rfl, rfl⟩
  | failed h => exact h.map (f := State.raiseBusFailure) (fun _ _ _ => rfl) fun _ => ⟨rfl, rfl, rfl⟩
  | hung h => exact h.map (f := State.hang) (fun _ _ _ => rfl) fun _ => ⟨rfl, rfl, rfl⟩

end Run.FbAgree

namespace State.FbAgree

theorem sendBytes {s u : State} (h : s.FbAgree u) (bs : List Byte) : (sendBytes bs s).FbAgree (sendBytes bs u) := by
  induction bs generalizing s u with
  | nil => exact .ok h
  | cons b bs ih => exact (h.cmd b).bind fun _ _ h => ih h

theorem command {s u : State} (h : s.FbAgree u) (i : Instr) : (s.command i).FbAgree (u.command i) := by
  unfold State.command
  rw [h.cfg]
  exact h.sendBytes _

/-- A flush sends `FB`, which is read below `LEN` only (R163). -/
theorem showBody {s u : State} (h : s.FbAgree u) : s.showBody.FbAgree u.showBody := by
  unfold State.showBody
  rw [walk_eq_sendBytes, walk_eq_sendBytes, h.cfg]
  exact (h.sendBytes _).bind fun s u h => h.fbBytes ▸ h.data s.fbBytes

theorem initBody {s u : State} (h : s.FbAgree u) : s.initBody.FbAgree u.initBody := by
  unfold State.initBody
  rw [walk_eq_sendBytes, walk_eq_sendBytes, h.cfg]
  exact ((h.sendBytes _).bind fun _ _ h => (h.fillFb 0x00).showBody).andThen fun _ _ h => h.withLife .on

theorem powerOn {s u : State} (h : s.FbAgree u) : s.powerOn.FbAgree u.powerOn :=
  h.map (f := State.powerOn) State.powerOn_withFb fun s =>
    ⟨s.powerOn_moved.cfg, s.powerOn_fb, s.powerOn_moved.fbDraw⟩

/-- The body of every instruction comes to the same end from states that agree. -/
theorem bodyOf {s u : State} (h : s.FbAgree u) (height : s.cfg.h % 8 = 0) (i : Instr) :
    (bodyOf i s).FbAgree (bodyOf i u) := by
  cases i with
  | fill c => exact .ok (h.fillFb _)
  | setpx x y c => exact .ok (h.setPx height _ _ c)
  | scroll dx dy => exact .ok (h.setAllPx_scrolled height _ _)
  | pwron => exact .ok h.powerOn
  | init => exact h.initBody
  | showFrame => exact h.showBody
  | pwroff => exact (h.command (.setDisp 0)).andThen fun _ _ h => h.withLife .sleep
  | glyphs ch x y c sc => exact .ok (h.drawGlyph height ch _ _ c _)
  | texts t x y => exact .ok (((h.setPen (some 0)).textsLoop height _ _ t).setPen none)
  | text t x y c => exact .ok (((h.setPen (some 0)).textLoop height _ _ c t).setPen none)
  | contrast v => exact h.command (.setContrast v)
  | invert b => exact h.command (.setNormInv b)
  | _ => exact h.command _

end State.FbAgree

/-- An instruction keeps the configuration, so that `LEN` stays where it is. -/
theorem bodyOf_next_len (i : Instr) (s : State) : (bodyOf i s).next.cfg.len = s.cfg.len :=
  congrArg Cfg.len (exec_cfg (exec_eq_next i s))

/-- Settles O29: the two bodies end alike, and how an operation ends does not depend on `FB`. -/
theorem instructionsReadOnlyInsideTheFramebuffer : Obligations.InstructionsReadOnlyInsideTheFramebuffer := by
  intro i s t u legal same reads he
  obtain rfl := next_of_exec he
  have agree := (State.FbAgree.bodyOf ⟨same, reads⟩ (Cfg.legal_h legal) i).next
  exact ⟨_, exec_eq_next i u, agree.same, fun k hk => agree.reads k (bodyOf_next_len i s ▸ hk)⟩

/-! ### What the receiver makes of commands and data (R146) -/

/-- The bytes of a controller command, with the default opcodes (log 3), complete a command at the last one and no
earlier (R91, R93). -/
theorem encodeWire_completes_at_last {i : Instr} (hi : i.isHost = false) :
    (∀ k < (encodeWire Opc.std i).length, parseWire Opc.std ((encodeWire Opc.std i).take k) = .incomplete) ∧
      parseWire Opc.std (encodeWire Opc.std i) = .complete i [] := by
  have two (o p : Byte) (ho : parseWire Opc.std [o] = .incomplete) :
      ∀ k < [o, p].length, parseWire Opc.std ([o, p].take k) = .incomplete
    | 0, _ => rfl
    | 1, _ => ho
  have three (o p q : Byte) (h1 : parseWire Opc.std [o] = .incomplete) (h2 : parseWire Opc.std [o, p] = .incomplete) :
      ∀ k < [o, p, q].length, parseWire Opc.std ([o, p, q].take k) = .incomplete
    | 0, _ => rfl
    | 1, _ => h1
    | 2, _ => h2
  cases i with
  | setDisp n => revert n; decide
  | setStartLine l => revert l; decide
  | setSegRemap r => revert r; decide
  | setComOutDir d => revert d; decide
  | setEntireOn => decide
  | setNormInv v => revert v; decide
  | setColAddr a b => exact ⟨three _ a b rfl rfl, rfl⟩
  | setPageAddr a b => exact ⟨three _ a b rfl rfl, rfl⟩
  | setMemAddr p | setMuxRatio p | setDispOffset p | setComPinCfg p | setClkDiv p | setPrecharge p | setVcomDesel p
  | setContrast p | setChargePump p => exact ⟨two _ p rfl, rfl⟩
  | _ => exact nomatch hi

/-- The receiver with its data/command line at another level; no command and no data byte reads the level. -/
def Rx.withDc (rx : Rx) (v : Bit) : Rx := { rx with dc := v }

namespace Rx

@[simp] theorem apply_pending (rx : Rx) (i : Instr) : (rx.apply i).pending = rx.pending := by cases i <;> rfl
@[simp] theorem apply_held (rx : Rx) (i : Instr) : (rx.apply i).held = rx.held := by cases i <;> rfl

theorem apply_withDc (rx : Rx) (v : Bit) (i : Instr) : (rx.withDc v).apply i = (rx.apply i).withDc v := by
  cases i <;> rfl

theorem foldl_apply_withDc (is : List Instr) (rx : Rx) (v : Bit) :
    is.foldl Rx.apply (rx.withDc v) = (is.foldl Rx.apply rx).withDc v := by
  induction is generalizing rx with
  | nil => rfl
  | cons i is ih => rw [List.foldl_cons, apply_withDc, ih, List.foldl_cons]

/-- What waits for its command to be complete has no part in the command's effect. -/
theorem apply_of_pending (rx : Rx) (p : List Byte) (i : Instr) :
    { ({ rx with pending := p } : Rx).apply i with pending := [] } = { rx.apply i with pending := [] } := by
  cases i <;> rfl

theorem cmdByte_complete {o : Opc} {rx : Rx} {b : Byte} {i : Instr} {rest : List Byte}
    (h : parseWire o (rx.pending ++ [b]) = .complete i rest) :
    rx.cmdByte o b = { rx.apply i with pending := [] } := by
  unfold Rx.cmdByte
  rw [h]

theorem cmdByte_incomplete {o : Opc} {rx : Rx} {b : Byte} (h : parseWire o (rx.pending ++ [b]) = .incomplete) :
    rx.cmdByte o b = { rx with pending := rx.pending ++ [b] } := by
  unfold Rx.cmdByte
  rw [h]

theorem bytes_cmd {rx : Rx} (held : rx.held = false) (o : Opc) (bs : List Byte) :
    rx.bytes o false bs = bs.foldl (Rx.cmdByte o) rx := by
  simp [Rx.bytes, held]

theorem bytes_data {rx : Rx} (held : rx.held = false) (o : Opc) (bs : List Byte) :
    rx.bytes o true bs = bs.foldl (Rx.dataByte o) rx := by
  simp [Rx.bytes, held]

/-- On `REG` the control byte says which mode the bytes are for (R131, R132). -/
theorem event_regTxn_cmd (rx : Rx) (c : Cfg) (bs : List Byte) :
    rx.event c (.regTxn c.busAddr (c.ctrlCmd :: bs)) = rx.bytes c.opc false bs := by
  simp [Rx.event]

theorem event_regTxn_data {c : Cfg} (legal : c.legal = true) (rx : Rx) (bs : List Byte) :
    rx.event c (.regTxn c.busAddr (c.ctrlData :: bs)) = rx.bytes c.opc true bs := by
  have ctrl : c.ctrlData ≠ c.ctrlCmd := fun h => by simp [Cfg.legal, h] at legal
  simp [Rx.event, ctrl]

/-- A `Cmd` brings its byte to a receiver that is not held in reset, in command mode (R131, R133, R146). -/
theorem run_cmdEvents {c : Cfg} {rx : Rx} (held : rx.held = false) (b : Byte) :
    ∃ v, Rx.run c (cmdEvents c b) rx = (rx.withDc v).cmdByte c.opc b := by
  unfold cmdEvents
  split
  · exact ⟨rx.dc, (rx.event_regTxn_cmd c [b]).trans (bytes_cmd held c.opc [b])⟩
  · exact ⟨0, bytes_cmd (rx := rx.withDc 0) held c.opc [b]⟩

/-- Bytes that complete a command at the last of them, each by its own `Cmd`, have the command's effect (R91, R146). -/
theorem run_cmdsEvents {c : Cfg} {i : Instr} {rest : List Byte} (bs : List Byte) {rx : Rx} (ne : bs ≠ [])
    (held : rx.held = false)
    (short : ∀ k < bs.length, parseWire c.opc (rx.pending ++ bs.take k) = .incomplete)
    (whole : parseWire c.opc (rx.pending ++ bs) = .complete i rest) :
    ∃ v, Rx.run c (cmdsEvents c bs) rx = ({ rx.apply i with pending := [] } : Rx).withDc v := by
  induction bs generalizing rx with
  | nil => exact absurd rfl ne
  | cons b bs ih =>
    obtain ⟨v, first⟩ := Rx.run_cmdEvents (c := c) held b
    rw [cmdsEvents, List.flatMap_cons, Rx.run_append, first]
    cases bs with
    | nil => exact ⟨v, by rw [Rx.cmdByte_complete (rx := rx.withDc v) whole, apply_withDc]; rfl⟩
    | cons b' bs =>
      have more : parseWire c.opc ((rx.withDc v).pending ++ [b]) = .incomplete := short 1 (by simp)
      rw [Rx.cmdByte_incomplete more]
      obtain ⟨w, h⟩ := ih (rx := { rx.withDc v with pending := rx.pending ++ [b] }) (List.cons_ne_nil _ _) held
        (fun k hk => by simpa using short (k + 1) (by simpa using hk)) (by simpa using whole)
      refine ⟨w, h.trans ?_⟩
      rw [apply_of_pending, apply_withDc]
      rfl

/-- A controller command as PSDC sends it, to a receiver with nothing half sent. -/
theorem run_command {c : Cfg} (std : c.opc = Opc.std) {i : Instr} (hi : i.isHost = false) {rx : Rx}
    (pending : rx.pending = []) (held : rx.held = false) :
    ∃ v, Rx.run c (cmdsEvents c (encodeWire c.opc i)) rx = (rx.apply i).withDc v := by
  obtain ⟨short, whole⟩ := encodeWire_completes_at_last hi
  have ne : encodeWire Opc.std i ≠ [] := fun h => by rw [h] at whole; exact nomatch whole
  have same : ({ rx.apply i with pending := [] } : Rx) = rx.apply i := by
    rw [← pending, ← apply_pending rx i]
  rw [← same, std]
  exact Rx.run_cmdsEvents _ ne held (by rw [std, pending]; exact short) (by rw [std, pending]; exact whole)

/-- A table of commands, one after another. -/
theorem run_commands {c : Cfg} (std : c.opc = Opc.std) {is : List Instr} (his : ∀ i ∈ is, i.isHost = false) {rx : Rx}
    (pending : rx.pending = []) (held : rx.held = false) :
    ∃ v, Rx.run c (cmdsEvents c (is.flatMap (encodeWire c.opc))) rx = (is.foldl Rx.apply rx).withDc v := by
  induction is generalizing rx with
  | nil => exact ⟨rx.dc, rfl⟩
  | cons i is ih =>
    obtain ⟨v, first⟩ := Rx.run_command std (his i List.mem_cons_self) pending held
    obtain ⟨w, rest⟩ := ih (fun j hj => his j (List.mem_cons_of_mem _ hj)) (rx := (rx.apply i).withDc v)
      ((apply_pending rx i).trans pending) ((apply_held rx i).trans held)
    refine ⟨w, ?_⟩
    rw [List.flatMap_cons, cmdsEvents, List.flatMap_append, Rx.run_append]
    unfold cmdsEvents at first rest
    rw [first, rest, foldl_apply_withDc]
    rfl

/-- A `Data` brings its bytes to a receiver that is not held in reset, in data mode (R132, R134, R146). -/
theorem run_dataEvents {c : Cfg} (legal : c.legal = true) {rx : Rx} (held : rx.held = false) (bs : List Byte) :
    ∃ v, Rx.run c (dataEvents c bs) rx = bs.foldl (Rx.dataByte c.opc) (rx.withDc v) := by
  unfold dataEvents
  split
  · exact ⟨rx.dc, (rx.event_regTxn_data legal bs).trans (bytes_data held c.opc bs)⟩
  · exact ⟨1, bytes_data (rx := rx.withDc 1) held c.opc bs⟩

/-- Of a `Data` that fails the receiver takes the first bytes, however many (R137). -/
theorem runAnswered_dataEvents_fail {c : Cfg} (legal : c.legal = true) {rx : Rx} (held : rx.held = false)
    (bs : List Byte) (n : Nat) :
    ∃ v k, Rx.runAnswered c (dataEvents c bs) [.fail] n rx = (bs.take k).foldl (Rx.dataByte c.opc) (rx.withDc v) := by
  unfold dataEvents
  split
  · simp only [Rx.runAnswered, Event.isTxn, if_true, Event.cut]
    cases Config.rxTaken n with
    | zero => exact ⟨rx.dc, 0, rfl⟩
    | succ k => exact ⟨rx.dc, k, (rx.event_regTxn_data legal (bs.take k)).trans (bytes_data held c.opc _)⟩
  · exact ⟨1, Config.rxTaken n, bytes_data (rx := rx.withDc 1) held c.opc _⟩

/-- The transactions answered `Done` before the rest of a stretch are taken whole. -/
theorem runAnswered_append_done (c : Cfg) (es more : List Event) (as : List Answer) (n : Nat) (rx : Rx) :
    Rx.runAnswered c (es ++ more) (List.replicate (es.filter Event.isTxn).length .done ++ as) n rx =
      Rx.runAnswered c more as n (Rx.run c es rx) := by
  induction es generalizing rx with
  | nil => rfl
  | cons e es ih =>
    by_cases h : e.isTxn = true
    · simp only [List.cons_append, List.filter_cons, h, if_true, List.length_cons, List.replicate_succ, Rx.runAnswered,
        Rx.run_cons, ih]
    · simp only [List.cons_append, List.filter_cons, h, Rx.runAnswered, Rx.run_cons, ih, Bool.false_eq_true, if_false]

end Rx

/-- Each `Cmd` is one transaction (R13). -/
theorem cmdsEvents_txns (c : Cfg) (bs : List Byte) : ((cmdsEvents c bs).filter Event.isTxn).length = bs.length := by
  induction bs with
  | nil => rfl
  | cons b bs ih =>
    rw [cmdsEvents, List.flatMap_cons, List.filter_append, List.length_append, (cmdEvents_txn c b).one,
      List.length_cons, ← ih, cmdsEvents, Nat.add_comm]

/-! ### The window of a flush (R57, R163) and the bytes that fill it -/

/-- R9 keeps the window and the multiplex ratio in a byte. -/
theorem Cfg.legal_bounds {c : Cfg} (legal : c.legal = true) :
    1 ≤ c.w ∧ 8 ≤ c.h ∧ c.h % 8 = 0 ∧ c.h ≤ 256 ∧ c.colLast ≤ 255 := by
  simp only [Cfg.legal, Bool.and_eq_true, decide_eq_true_eq] at legal
  obtain ⟨⟨⟨⟨⟨w, h⟩, h8⟩, h255⟩, cols⟩, -⟩ := legal
  exact ⟨w, h, h8, by omega, cols⟩

theorem Cfg.colLast_eq {c : Cfg} (legal : c.legal = true) : c.colLast + 1 = c.colFirst + c.w := by
  obtain ⟨w, -⟩ := Cfg.legal_bounds legal
  unfold Cfg.colLast Cfg.colFirst
  omega

theorem asByte_toNat {n : Nat} (h : n ≤ 255) : (asByte n).toNat = n := by
  rw [asByte, BitVec.toNat_ofNat]
  exact Nat.mod_eq_of_lt (by omega)

/-- The receiver with the whole panel as its window and the pointers at its start. -/
def Rx.atWindow (rx : Rx) (c : Cfg) : Rx :=
  { rx with
    colFirst := c.colFirst, colLast := c.colLast, col := c.colFirst, pageFirst := 0, pageLast := c.pages - 1,
    page := 0 }

/-- The window commands of a flush (R163). -/
theorem Rx.apply_showTable {c : Cfg} (legal : c.legal = true) (rx : Rx) :
    (showTable c).foldl Rx.apply rx = rx.atWindow c := by
  obtain ⟨w, -, -, h256, cols⟩ := Cfg.legal_bounds legal
  have first : c.colFirst ≤ 255 := by have := Cfg.colLast_eq legal; omega
  have pages : c.pages - 1 ≤ 255 := by unfold Cfg.pages; omega
  simp only [showTable, List.foldl_cons, List.foldl_nil, Rx.apply, asByte_toNat first, asByte_toNat cols,
    asByte_toNat pages]
  rfl

/-- The next index lies in the same row of a window of width `w`, or starts the next one. -/
theorem divMod_succ {w : Nat} (hw : 1 ≤ w) (n : Nat) :
    (n % w + 1 < w ∧ (n + 1) / w = n / w ∧ (n + 1) % w = n % w + 1) ∨
      (n % w + 1 = w ∧ (n + 1) / w = n / w + 1 ∧ (n + 1) % w = 0) := by
  have split := Nat.mod_add_div n w
  have lt := Nat.mod_lt n hw
  rcases Nat.lt_or_eq_of_le (Nat.succ_le_of_lt lt) with h | h
  · exact .inl ⟨h, (Nat.div_mod_unique hw).2 ⟨by omega, h⟩⟩
  · exact .inr ⟨h, (Nat.div_mod_unique hw).2 ⟨by rw [Nat.mul_add]; omega, hw⟩⟩

/-- Cells of the window are told apart by their index in `FB`. -/
theorem rxCell_window_inj {c : Cfg} (legal : c.legal = true) {p x n : Nat} (hx : x < c.w) :
    rxCell p (c.colFirst + x) = rxCell (n / c.w) (c.colFirst + n % c.w) ↔ p * c.w + x = n := by
  obtain ⟨w, -, -, -, cols⟩ := Cfg.legal_bounds legal
  have last := Cfg.colLast_eq legal
  have lt := Nat.mod_lt n w
  have index : n / c.w = p ∧ n % c.w = x ↔ p * c.w + x = n := by
    rw [Nat.div_mod_unique w, Nat.add_comm x, Nat.mul_comm c.w]
    exact and_iff_left hx
  rw [← index]
  unfold rxCell
  omega

theorem index_lt_len {c : Cfg} {p x : Nat} (hp : p < c.pages) (hx : x < c.w) : p * c.w + x < c.len := by
  have le := Nat.mul_le_mul_right c.w (Nat.succ_le_of_lt hp)
  rw [Nat.succ_mul] at le
  unfold Cfg.len
  omega

theorem row_lt_pages {c : Cfg} {n : Nat} (lt : n < c.len) : n / c.w < c.pages :=
  Nat.div_lt_of_lt_mul (by rwa [Nat.mul_comm])

/-- A receiver that stood at the start of its window as `rx0` and has taken `n` bytes of data: nothing but the memory
and the pointers has changed, and the pointers stand where byte `n` goes. -/
structure Rx.AtByte (c : Cfg) (rx0 : Rx) (n : Nat) (rx : Rx) : Prop where
  rest : rx = { rx0.atWindow c with ram := rx.ram, col := rx.col, page := rx.page }
  col : rx.col = c.colFirst + n % c.w
  page : rx.page = n / c.w % c.pages

namespace Rx.AtByte
variable {c : Cfg} {rx0 rx : Rx} {n : Nat}

theorem start (c : Cfg) (rx0 : Rx) : Rx.AtByte c rx0 0 (rx0.atWindow c) where
  rest := rfl
  col := by rw [Nat.zero_mod]; rfl
  page := by rw [Nat.zero_div, Nat.zero_mod]; rfl

theorem mode (h : Rx.AtByte c rx0 n rx) : rx.mode = rx0.mode := by rw [h.rest]; rfl
theorem colFirst (h : Rx.AtByte c rx0 n rx) : rx.colFirst = c.colFirst := by rw [h.rest]; rfl
theorem colLast (h : Rx.AtByte c rx0 n rx) : rx.colLast = c.colLast := by rw [h.rest]; rfl
theorem pageFirst (h : Rx.AtByte c rx0 n rx) : rx.pageFirst = 0 := by rw [h.rest]; rfl
theorem pageLast (h : Rx.AtByte c rx0 n rx) : rx.pageLast = c.pages - 1 := by rw [h.rest]; rfl

/-- What a stream of data leaves as it was. -/
theorem settings (h : Rx.AtByte c rx0 n rx) : rx.on = rx0.on ∧ rx.mode = rx0.mode ∧ rx.inverted = rx0.inverted ∧
    rx.contrast = rx0.contrast ∧ rx.muxRatio = rx0.muxRatio ∧ rx.remap = rx0.remap ∧ rx.comDir = rx0.comDir := by
  rw [h.rest]
  exact ⟨rfl, rfl, rfl, rfl, rfl, rfl, rfl⟩

theorem withRam (h : Rx.AtByte c rx0 n rx) (m : List Host.Cell) : Rx.AtByte c rx0 n { rx with ram := m } where
  rest := by rw [h.rest]
  col := h.col
  page := h.page

/-- Until the window is full the page pointer counts up. -/
theorem page_of_lt (h : Rx.AtByte c rx0 n rx) (lt : n < c.len) : rx.page = n / c.w :=
  h.page.trans (Nat.mod_eq_of_lt (row_lt_pages lt))

/-- The page pointer after the last byte of a row. -/
theorem nextPage (h : Rx.AtByte c rx0 n rx) (lt : n < c.len) : rx.nextPage = (n / c.w + 1) % c.pages := by
  have row := row_lt_pages lt
  unfold Rx.nextPage
  rw [h.page_of_lt lt, h.pageLast, h.pageFirst]
  split
  · exact (Nat.mod_eq_of_lt (Nat.add_lt_of_lt_sub ‹_›)).symm
  · have last : n / c.w = c.pages - 1 := by omega
    rw [if_pos last, show n / c.w + 1 = c.pages by omega, Nat.mod_self]

/-- The pointers advance to the next byte's place, inside a row or to the next one. -/
theorem advance (h : Rx.AtByte c rx0 n rx) (legal : c.legal = true) (lt : n < c.len) :
    Rx.AtByte c rx0 (n + 1) rx.advance := by
  obtain ⟨w, -⟩ := Cfg.legal_bounds legal
  have last := Cfg.colLast_eq legal
  have col := h.col
  have colLast := h.colLast
  refine ⟨by rw [Rx.advance_eq, h.rest], ?_, ?_⟩
  all_goals rcases divMod_succ w n with ⟨inside, hd, hm⟩ | ⟨full, hd, hm⟩
  · rw [Rx.advance_inside (by omega), hm, ← Nat.add_assoc, ← col]
  · rw [Rx.advance_end (by omega), hm, Nat.add_zero, ← h.colFirst]
  · rw [Rx.advance_inside (by omega), hd, ← h.page]
  · rw [Rx.advance_end (by omega), hd, ← h.nextPage lt]

end Rx.AtByte

/-- The first `n` bytes of `f` have come: each cell of the window holds its byte of `f` or, if that has not come, what
it held before. -/
structure Rx.Filled (c : Cfg) (rx0 : Rx) (f : Nat → Byte) (n : Nat) (rx : Rx) : Prop extends Rx.AtByte c rx0 n rx where
  cell : ∀ p x, p < c.pages → x < c.w → Memory.read rx.ram (rxCell p (c.colFirst + x)) =
    if p * c.w + x < n then some (f (p * c.w + x)) else Memory.read rx0.ram (rxCell p (c.colFirst + x))

namespace Rx.Filled
variable {c : Cfg} {rx0 rx : Rx} {f : Nat → Byte} {n : Nat}

theorem start (c : Cfg) (rx0 : Rx) (f : Nat → Byte) : Rx.Filled c rx0 f 0 (rx0.atWindow c) where
  toAtByte := .start c rx0
  cell p x _ _ := by rw [if_neg (Nat.not_lt_zero _)]; rfl

/-- Byte `n` goes to its cell and to no other (R146). -/
theorem dataByte (h : Rx.Filled c rx0 f n rx) (legal : c.legal = true) (horizontal : rx0.mode = c.opc.modeHorizontal)
    (lt : n < c.len) : Rx.Filled c rx0 f (n + 1) (rx.dataByte c.opc (f n)) where
  toAtByte := by
    unfold Rx.dataByte
    rw [if_pos (h.mode.trans horizontal)]
    exact (h.withRam _).advance legal lt
  cell p x hp hx := by
    rw [Rx.dataByte_ram (h.mode.trans horizontal), h.page_of_lt lt, h.col]
    by_cases eq : p * c.w + x = n
    · rw [(rxCell_window_inj legal hx).2 eq, Memory.read_write_same, if_pos (by omega), eq]
    · rw [Memory.read_write_other _ _ (fun same => eq ((rxCell_window_inj legal hx).1 same)), h.cell p x hp hx]
      exact if_congr (by omega) rfl rfl

/-- A stream of data from the start of the window, no longer than the window. -/
theorem stream (legal : c.legal = true) (horizontal : rx0.mode = c.opc.modeHorizontal) (f : Nat → Byte)
    (le : n ≤ c.len) :
    Rx.Filled c rx0 f n (((List.range n).map f).foldl (Rx.dataByte c.opc) (rx0.atWindow c)) := by
  induction n with
  | zero => exact .start c rx0 f
  | succ n ih =>
    rw [List.range_succ, List.map_append, List.foldl_append]
    exact (ih (Nat.le_of_succ_le le)).dataByte legal horizontal le

/-- Any first bytes of a whole framebuffer. -/
theorem stream_take (legal : c.legal = true) (horizontal : rx0.mode = c.opc.modeHorizontal) (f : Nat → Byte) (k : Nat) :
    Rx.Filled c rx0 f (min k c.len)
      ((((List.range c.len).map f).take k).foldl (Rx.dataByte c.opc) (rx0.atWindow c)) := by
  rw [← List.map_take, List.take_range]
  exact .stream legal horizontal f (Nat.min_le_right k c.len)

/-- A full window holds `f` in every cell. -/
theorem cell_full (h : Rx.Filled c rx0 f c.len rx) {p x : Nat} (hp : p < c.pages) (hx : x < c.w) :
    Memory.read rx.ram (rxCell p (c.colFirst + x)) = some (f (p * c.w + x)) := by
  rw [h.cell p x hp hx, if_pos (index_lt_len hp hx)]

/-- Whatever has come, each cell of the window holds its byte of `f` or what it held before. -/
theorem cell_old_or_new (h : Rx.Filled c rx0 f n rx) {p x : Nat} (hp : p < c.pages) (hx : x < c.w) :
    Memory.read rx.ram (rxCell p (c.colFirst + x)) = some (f (p * c.w + x)) ∨
      Memory.read rx.ram (rxCell p (c.colFirst + x)) = Memory.read rx0.ram (rxCell p (c.colFirst + x)) := by
  rw [h.cell p x hp hx]
  split
  · exact .inl rfl
  · exact .inr rfl

end Rx.Filled

/-! ### What a flush makes of the receiver (R58, R137, R146) -/

theorem showTable_commands (c : Cfg) : ∀ i ∈ showTable c, i.isHost = false := by
  simp [showTable, Instr.isHost]

theorem initTable_commands (c : Cfg) : ∀ i ∈ initTable c, i.isHost = false := by
  simp [initTable, Instr.isHost]

theorem Rx.foldl_apply_held (is : List Instr) (rx : Rx) : (is.foldl Rx.apply rx).held = rx.held := by
  induction is generalizing rx with
  | nil => rfl
  | cons i is ih => exact (ih _).trans (apply_held rx i)

/-- The events of a flush after the bytes `bs`, with all of `FB` in one `Data` (R163). -/
def flushEvents (c : Cfg) (bs : List Byte) (f : Nat → Byte) : List Event :=
  cmdsEvents c (bs ++ showBytes c) ++ dataEvents c ((List.range c.len).map f)

namespace Rx
section
variable {c : Cfg} (legal : c.legal = true) (std : c.opc = Opc.std) {is : List Instr}
  (his : ∀ i ∈ is, i.isHost = false) {rx : Rx} (pending : rx.pending = []) (held : rx.held = false)
include legal std his pending held

/-- Any commands, then the window commands of a flush. -/
theorem run_window : ∃ v, Rx.run c (cmdsEvents c (is.flatMap (encodeWire c.opc) ++ showBytes c)) rx =
    ((is.foldl Rx.apply rx).withDc v).atWindow c := by
  have commands : ∀ i ∈ is ++ showTable c, i.isHost = false := fun i hi =>
    (List.mem_append.1 hi).elim (his i) (showTable_commands c i)
  obtain ⟨v, run⟩ := Rx.run_commands std commands pending held
  rw [List.flatMap_append, showTable_bytes] at run
  exact ⟨v, by rw [run, List.foldl_append, apply_showTable legal]; rfl⟩

/-- Any commands, then a flush: it fills the window, where they leave the receiver in horizontal mode. -/
theorem run_flush (horizontal : (is.foldl Rx.apply rx).mode = c.opc.modeHorizontal) (f : Nat → Byte) :
    ∃ v, Rx.Filled c (is.foldl Rx.apply (rx.withDc v)) f c.len
      (Rx.run c (flushEvents c (is.flatMap (encodeWire c.opc)) f) rx) := by
  obtain ⟨v, window⟩ := Rx.run_window legal std his pending held
  obtain ⟨w, data⟩ := Rx.run_dataEvents legal (rx := ((is.foldl Rx.apply rx).withDc v).atWindow c)
    ((foldl_apply_held is rx).trans held) ((List.range c.len).map f)
  refine ⟨w, ?_⟩
  rw [flushEvents, Rx.run_append, window, data, foldl_apply_withDc]
  exact .stream (rx0 := (is.foldl Rx.apply rx).withDc w) legal horizontal f (Nat.le_refl _)

end

/-- A flush whose `Data` fails fills some first part of the window. -/
theorem runAnswered_flush_fail {c : Cfg} (legal : c.legal = true) (std : c.opc = Opc.std) {rx : Rx}
    (pending : rx.pending = []) (held : rx.held = false) (horizontal : rx.mode = c.opc.modeHorizontal)
    (f : Nat → Byte) (n : Nat) :
    ∃ v m, Rx.Filled c (rx.withDc v) f m
      (Rx.runAnswered c (flushEvents c [] f) (List.replicate 6 .done ++ [.fail]) n rx) := by
  obtain ⟨v, window⟩ := Rx.run_window legal std (is := []) (fun _ h => nomatch h) pending held
  obtain ⟨w, k, data⟩ := Rx.runAnswered_dataEvents_fail legal (rx := (rx.withDc v).atWindow c) held
    ((List.range c.len).map f) n
  have taken := Rx.runAnswered_append_done c (cmdsEvents c (showBytes c)) (dataEvents c ((List.range c.len).map f))
    [.fail] n rx
  rw [cmdsEvents_txns, show Rx.run c (cmdsEvents c (showBytes c)) rx = _ from window] at taken
  refine ⟨w, min k c.len, ?_⟩
  rw [show Rx.runAnswered c (flushEvents c [] f) (List.replicate 6 .done ++ [.fail]) n rx = _ from taken.trans data]
  exact .stream_take (rx0 := rx.withDc w) legal horizontal f k

end Rx

/-! ### The flush of SHOW and of INIT -/

/-- A piece whose transactions are all answered `Done` runs to its end, with all their events (R136). -/
theorem Sends.done {gs : List (List Event)} {s : State} {r : Run} (h : Sends gs s r) {rest : List Reply}
    (bus : s.bus = List.replicate gs.length .done ++ rest) : ∃ t, r = .ok t ∧ t.trace = s.trace ++ gs.flatten := by
  have early {k : Nat} (lt : k < gs.length) {q : List Reply} (hq : ∀ x, q ≠ .done :: x) :
      s.bus ≠ List.replicate k Reply.done ++ q := fun bus' => by
    rw [bus, show gs.length = k + (gs.length - k - 1 + 1) by omega, List.replicate_add, List.append_assoc] at bus'
    exact hq _ (List.append_cancel_left bus').symm
  cases h with
  | @ok t _ trace _ _ _ => exact ⟨t, rfl, trace⟩
  | failed k lt _ _ _ bus' fails _ => exact absurd bus' (early lt fails.ne_done)
  | hung k g at_k _ _ _ bus' never _ _ => exact absurd bus' (early (List.getElem?_eq_some_iff.1 at_k).1 never.ne_done)

/-- The events of SHOW's transactions (R163). -/
theorem txnsOf_showFrame_flatten (s : State) :
    (txnsOf s.cfg s.fbBytes .showFrame).flatten = flushEvents s.cfg [] s.fbRead := by
  simp only [txnsOf, List.flatten_append, List.flatten_singleton, ← List.flatMap_def]
  rfl

/-- The events of INIT's transactions (R161, R162). -/
theorem txnsOf_init_flatten (c : Cfg) (fb : List Byte) :
    (txnsOf c fb .init).flatten = flushEvents c ((initTable c).flatMap (encodeWire c.opc)) fun _ => 0x00 := by
  have zeros : (List.range c.len).map (fun _ => (0x00 : Byte)) = List.replicate c.len 0x00 := by simp
  rw [initTable_bytes, flushEvents, zeros]
  simp only [txnsOf, List.flatten_append, List.flatten_singleton, ← List.flatMap_def]
  rfl

/-- What the table of INIT leaves in the receiver, but for what a flush sets anew (R162). -/
theorem Rx.apply_initTable {c : Cfg} (legal : c.legal = true) (rx : Rx) :
    ((initTable c).foldl Rx.apply rx).on = 1 ∧ ((initTable c).foldl Rx.apply rx).mode = c.opc.modeHorizontal ∧
      ((initTable c).foldl Rx.apply rx).inverted = 0 ∧ ((initTable c).foldl Rx.apply rx).contrast = 0xFF ∧
      ((initTable c).foldl Rx.apply rx).muxRatio.toNat = c.h - 1 ∧ ((initTable c).foldl Rx.apply rx).remap = 1 ∧
      ((initTable c).foldl Rx.apply rx).comDir = 1 := by
  obtain ⟨-, -, -, h256, -⟩ := Cfg.legal_bounds legal
  exact ⟨rfl, rfl, rfl, rfl, asByte_toNat (by omega), rfl, rfl⟩

/-- Settles O57: the events of SHOW set the window and fill it with `FB`; a pixel is a bit of its byte on both sides. -/
theorem showFillsTheControllerWindow : Obligations.ShowFillsTheControllerWindow := by
  intro s rx r legal std horizontal pending held bus
  obtain ⟨t, body, trace⟩ := (bodyOf_sends (i := .showFrame) (by simp) s).done bus
  rw [txnsOf_showFrame_flatten] at trace
  obtain ⟨v, filled⟩ := Rx.run_flush legal std (is := []) (fun _ h => nomatch h) pending held horizontal s.fbRead
  refine ⟨t.complete, flushEvents s.cfg [] s.fbRead, by rw [exec_eq_next, body, Run.next_ok], rfl, trace,
    fun p x hp hx => filled.cell_full hp hx, fun x y hx hy => ?_⟩
  have row : y / 8 < s.cfg.pages := by
    obtain ⟨-, -, h8, -⟩ := Cfg.legal_bounds legal
    unfold Cfg.pages
    omega
  exact congrArg (Option.map fun b => bitAt b (y % 8)) (filled.cell_full row hx)

/-- Settles O59: whatever part of the stream came, it is a first part of the window. -/
theorem failedShowLeavesEachCellOldOrNew : Obligations.FailedShowLeavesEachCellOldOrNew := by
  intro s rx n r legal std horizontal pending held bus
  obtain ⟨t, body, trace, -⟩ := (bodyOf_sends (i := .showFrame) (by simp) s).failed_at (k := 6)
    (by simp [txnsOf, showBytes]) (.inl rfl) bus
  have all : (txnsOf s.cfg s.fbBytes .showFrame).take 7 = txnsOf s.cfg s.fbBytes .showFrame := rfl
  rw [all, txnsOf_showFrame_flatten] at trace
  obtain ⟨v, m, filled⟩ := Rx.runAnswered_flush_fail legal std pending held horizontal s.fbRead n
  exact ⟨t.raiseBusFailure, flushEvents s.cfg [] s.fbRead, by rw [exec_eq_next, body, Run.next_failed], rfl, trace,
    fun p x hp hx => filled.cell_old_or_new hp hx⟩

/-- Settles O58: the table of INIT configures the receiver, and the flush after it fills the window with 0. -/
theorem initConfiguresTheController : Obligations.InitConfiguresTheController := by
  intro s rx r legal std pending held bus
  obtain ⟨t, body, trace⟩ := (bodyOf_sends (i := .init) (by simp) s).done bus
  rw [txnsOf_init_flatten] at trace
  obtain ⟨-, horizontal, -⟩ := Rx.apply_initTable legal rx
  obtain ⟨v, filled⟩ := Rx.run_flush legal std (initTable_commands s.cfg) pending held horizontal fun _ => 0x00
  obtain ⟨on, mode, inverted, contrast, muxRatio, remap, comDir⟩ := Rx.apply_initTable legal (rx.withDc v)
  obtain ⟨on', mode', inverted', contrast', muxRatio', remap', comDir'⟩ := filled.settings
  exact ⟨t.complete, _, by rw [exec_eq_next, body, Run.next_ok], rfl, trace, on'.trans on, mode'.trans mode,
    inverted'.trans inverted, contrast'.trans contrast, (congrArg BitVec.toNat muxRatio').trans muxRatio,
    remap'.trans remap, comDir'.trans comDir, fun p x hp hx => filled.cell_full hp hx⟩

end Sys2Proof.Machine
end

section
/-! PROOFS. The obligations of 30_encoding.md: the two decoders against their encoders, the bytes that are refused, and
the bytes a controller command sends. -/
namespace Sys2Proof.Machine

/-! ### Operand bytes (R82) -/

/-- The two bytes of an `s16` operand, low byte first, are its pattern. -/
theorem s16_extract (v : S16) : s16 (v.extractLsb' 0 8) (v.extractLsb' 8 8) = v := by
  have joined : v.extractLsb' 8 8 ++ v.extractLsb' 0 8 = v.extractLsb' 0 16 :=
    BitVec.extractLsb'_append_extractLsb'_eq_extractLsb' rfl
  rw [s16, joined, BitVec.extractLsb'_eq_self]

@[simp] theorem s16Bytes_s16 (lo hi : Byte) : s16Bytes (s16 lo hi) = [lo, hi] := by
  have hlo : (s16 lo hi).extractLsb' 0 8 = lo := BitVec.extractLsb'_append_eq_right
  have hhi : (s16 lo hi).extractLsb' 8 8 = hi := BitVec.extractLsb'_append_eq_left
  rw [s16Bytes, hlo, hhi]

/-- The length byte of a string that has an encoding is its length (R85). -/
theorem toNat_lengthByte {t : List Byte} (h : wfText t = true) : (BitVec.ofNat 8 t.length).toNat = t.length := by
  have le : t.length ≤ 255 := of_decide_eq_true h
  rw [BitVec.toNat_ofNat, Nat.mod_eq_of_lt (by omega)]

/-- A `bit` operand as a packet carries it is read back. -/
@[simp] theorem withBit_setWidth (v : Bit) (k : Bit → Parse) : withBit (v.setWidth 8) k = k v := by
  obtain rfl | rfl : v = 0#1 ∨ v = 1#1 := by revert v; decide
  · rfl
  · rfl

/-- A `bit` operand that is read was one of the two legal bytes. -/
theorem withBit_complete {b : Byte} {k : Bit → Parse} {i : Instr} {r : List Byte} (h : withBit b k = .complete i r) :
    ∃ v : Bit, b = v.setWidth 8 ∧ k v = .complete i r := by
  unfold withBit at h
  split at h
  case isTrue h0 => exact ⟨0#1, h0, h⟩
  case isFalse =>
    split at h
    case isTrue h1 => exact ⟨1#1, h1, h⟩
    case isFalse => exact nomatch h

/-- Any other byte is refused at once, whatever would follow (R89). -/
theorem withBit_reserved {b : Byte} (h0 : b ≠ 0#8) (h1 : b ≠ 1#8) (k : Bit → Parse) :
    withBit b k = .illegal (.reservedBit b) := by
  unfold withBit
  rw [if_neg h0, if_neg h1]

/-! ### Host packets (R83 to R88) -/

/-- The bytes are the packet of a host operation that has an encoding, followed by `rest`. -/
structure PacketOf (bs : List Byte) (i : Instr) (rest : List Byte) : Prop where
  host : i.isHost = true
  wellFormed : i.wellFormed = true
  bytes : bs = encodePacket i ++ rest

/-- Every packet the encoder makes is read back, whatever follows it. -/
theorem parsePacket_encodePacket {i : Instr} (host : i.isHost = true) (wf : i.wellFormed = true) (rest : List Byte) :
    parsePacket (encodePacket i ++ rest) = .complete i rest := by
  cases i with
  | pwron | init | showFrame | pwroff | contrast v => rfl
  | fill c => simp [encodePacket, parsePacket, parseFill]
  | invert b => simp [encodePacket, parsePacket, parseInvert]
  | setpx x y c => simp [encodePacket, s16Bytes, parsePacket, parseSetpx, s16_extract]
  | scroll dx dy => simp [encodePacket, s16Bytes, parsePacket, parseScroll, s16_extract]
  | glyphs ch x y c sc => simp [encodePacket, s16Bytes, parsePacket, parseGlyphs, s16_extract]
  | texts t x y => simp [encodePacket, s16Bytes, parsePacket, parseTexts, s16_extract, toNat_lengthByte wf]
  | text t x y c => simp [encodePacket, s16Bytes, parsePacket, parseText, s16_extract, toNat_lengthByte wf]
  | _ => exact nomatch host

/-- Settles O2: each operation's bytes through its own operand decoder. -/
theorem hostPacketRoundTrip : Obligations.HostPacketRoundTrip :=
  fun _ rest host wf => parsePacket_encodePacket host wf rest

section
variable {a : List Byte} {i : Instr} {r : List Byte}

theorem parseFill_complete (h : parseFill a = .complete i r) : PacketOf (0x01 :: a) i r := by
  unfold parseFill at h
  split at h
  · obtain ⟨v, rfl, read⟩ := withBit_complete h
    cases read
    exact ⟨rfl, rfl, rfl⟩
  · exact nomatch h

theorem parseSetpx_complete (h : parseSetpx a = .complete i r) : PacketOf (0x02 :: a) i r := by
  unfold parseSetpx at h
  split at h
  · obtain ⟨v, rfl, read⟩ := withBit_complete h
    cases read
    exact ⟨rfl, rfl, by simp [encodePacket]⟩
  · exact nomatch h

theorem parseScroll_complete (h : parseScroll a = .complete i r) : PacketOf (0x03 :: a) i r := by
  unfold parseScroll at h
  split at h
  · cases h
    exact ⟨rfl, rfl, by simp [encodePacket]⟩
  · exact nomatch h

theorem parseContrast_complete (h : parseContrast a = .complete i r) : PacketOf (0x13 :: a) i r := by
  unfold parseContrast at h
  split at h
  · cases h
    exact ⟨rfl, rfl, rfl⟩
  · exact nomatch h

theorem parseInvert_complete (h : parseInvert a = .complete i r) : PacketOf (0x14 :: a) i r := by
  unfold parseInvert at h
  split at h
  · obtain ⟨v, rfl, read⟩ := withBit_complete h
    cases read
    exact ⟨rfl, rfl, rfl⟩
  · exact nomatch h

theorem parseGlyphs_complete (h : parseGlyphs a = .complete i r) : PacketOf (0x20 :: a) i r := by
  unfold parseGlyphs at h
  split at h
  · obtain ⟨v, rfl, read⟩ := withBit_complete h
    split at read
    · cases read
      exact ⟨rfl, rfl, by simp [encodePacket]⟩
    · exact nomatch read
  · exact nomatch h

/-- The characters of a string, as many as the length byte says: what is taken has that length byte again. -/
theorem chars_complete {n : Byte} {t : List Byte} {k : List Byte → Instr}
    (h : (if t.length < n.toNat then Parse.incomplete else .complete (k (t.take n.toNat)) (t.drop n.toNat)) =
      .complete i r) :
    ∃ u, i = k u ∧ wfText u = true ∧ n :: t = BitVec.ofNat 8 u.length :: u ++ r := by
  split at h
  case isTrue => exact nomatch h
  case isFalse long =>
    cases h
    have len : (t.take n.toNat).length = n.toNat := by rw [List.length_take]; omega
    refine ⟨_, rfl, ?_, ?_⟩
    · rw [wfText, len]
      exact decide_eq_true (Nat.le_of_lt_succ n.isLt)
    · rw [len, BitVec.ofNat_toNat, BitVec.setWidth_eq, List.cons_append, List.take_append_drop]

theorem parseTexts_complete (h : parseTexts a = .complete i r) : PacketOf (0x21 :: a) i r := by
  unfold parseTexts at h
  split at h
  · obtain ⟨u, rfl, wf, bytes⟩ := chars_complete (k := fun u => .texts u _ _) h
    exact ⟨rfl, wf, by rw [bytes]; simp [encodePacket]⟩
  · exact nomatch h

theorem parseText_complete (h : parseText a = .complete i r) : PacketOf (0x22 :: a) i r := by
  unfold parseText at h
  split at h
  · obtain ⟨v, rfl, read⟩ := withBit_complete h
    split at read
    · obtain ⟨u, rfl, wf, bytes⟩ := chars_complete (k := fun u => .text u _ _ v) read
      exact ⟨rfl, wf, by rw [bytes]; simp [encodePacket]⟩
    · exact nomatch read
  · exact nomatch h

/-- A first byte outside the twelve opcodes is refused (R84, R88). -/
theorem parsePacket_reservedOpcode {op : Byte} (h : op ∉ hostOpcodes) (a : List Byte) :
    parsePacket (op :: a) = .illegal (.reservedOpcode op) := by
  simp only [hostOpcodes, List.mem_cons, List.not_mem_nil, or_false, not_or, BitVec.ofNat_eq_ofNat] at h
  simp [parsePacket, h]

/-- What the packet decoder reads is the encoder's packet: no other bytes decode. -/
theorem parsePacket_complete {bs : List Byte} (h : parsePacket bs = .complete i r) : PacketOf bs i r := by
  match bs with
  | [] => exact nomatch h
  | op :: a =>
    by_cases known : op ∈ hostOpcodes
    · simp only [hostOpcodes, List.mem_cons, List.not_mem_nil, or_false] at known
      rcases known with rfl | rfl | rfl | rfl | rfl | rfl | rfl | rfl | rfl | rfl | rfl | rfl
      · exact parseFill_complete h
      · exact parseSetpx_complete h
      · exact parseScroll_complete h
      · cases h; exact ⟨rfl, rfl, rfl⟩
      · cases h; exact ⟨rfl, rfl, rfl⟩
      · cases h; exact ⟨rfl, rfl, rfl⟩
      · exact parseContrast_complete h
      · exact parseInvert_complete h
      · cases h; exact ⟨rfl, rfl, rfl⟩
      · exact parseGlyphs_complete h
      · exact parseTexts_complete h
      · exact parseText_complete h
    · rw [parsePacket_reservedOpcode known] at h
      exact nomatch h

end

/-- The encoder's packets have the lengths of R83. -/
theorem encodePacket_length {i : Instr} (host : i.isHost = true) : (encodePacket i).length = packetLength i := by
  cases i with
  | fill | setpx | scroll | pwron | init | showFrame | contrast | invert | pwroff | glyphs => rfl
  | texts t x y | text t x y c => simp [encodePacket, s16Bytes, packetLength]; omega
  | _ => exact nomatch host

/-- The bounds of R87: the longest packet is a TEXT of 255 characters. -/
theorem packetLength_bounds {i : Instr} (wf : i.wellFormed = true) : 1 ≤ packetLength i ∧ packetLength i ≤ 262 := by
  cases i with
  | texts t x y | text t x y c =>
    have le : t.length ≤ 255 := of_decide_eq_true wf
    simp only [packetLength]
    omega
  | _ => simp [packetLength]

/-- Settles O4: a complete packet is the encoder's, and PWRON and a TEXT of 255 characters are the two ends. -/
theorem packetLengthsAreTheTable : Obligations.PacketLengthsAreTheTable := by
  refine ⟨fun bs i h => ?_, ⟨[0x10], .pwron, rfl, rfl⟩, ?_⟩
  · obtain ⟨host, wf, bytes⟩ := parsePacket_complete h
    have len : bs.length = packetLength i := by rw [bytes, List.append_nil, encodePacket_length host]
    rw [len]
    exact ⟨host, rfl, packetLength_bounds wf⟩
  · obtain ⟨t, len⟩ : ∃ t : List Byte, t.length = 255 := ⟨_, List.length_replicate (a := 0x41)⟩
    have longest : wfText t = true := decide_eq_true len.le
    refine ⟨_, .text t 0 0 1, parsePacket_encodePacket (i := .text t 0 0 1) rfl longest [], ?_⟩
    rw [List.append_nil, encodePacket_length rfl, packetLength, len]

/-- Settles O5: no branch of the packet decoder waits for a byte it does not use. -/
theorem packetEndsAtItsLastByte : Obligations.PacketEndsAtItsLastByte :=
  parsePacket_endsAtLastByte.last

/-! ### Refused bytes (R88, R89) -/

theorem State.accept_illegal {s : State} {b : Byte} {e : Reject} (h : parsePacket (s.pkt ++ [b]) = .illegal e) :
    s.accept b = s.illegal := by
  unfold State.accept
  rw [h]

/-- The byte that makes a packet illegal ends in FAULT with response 02, and nothing else moves. -/
theorem step_send_illegal {s : State} {b : Byte} {rest : List HostAct} {e : Reject} (legal : s.cfg.legal = true)
    (ready : s.ph = .idle ∨ s.ph = .collect) (host : s.host = .send b :: rest)
    (h : parsePacket (s.pkt ++ [b]) = .illegal e) :
    step s = .next { s with host := rest, ph := .fault, rsp := some .illegalCommand, rdata := none } := by
  rw [step_send_ready legal ready host, State.accept_illegal (s := s.tick.withHost rest) h]
  rfl

/-- FAULT takes no byte: only reset leaves it (R88, R224). -/
theorem step_fault {s s' : State} (ph : s.ph = .fault) (h : step s = .next s')
    (noReset : ∀ rest, s.host ≠ .reset :: rest) : s'.ph = .fault ∧ s'.pkt = s.pkt := by
  obtain ⟨-, hc⟩ := step_next_cases h
  cases hc with
  | reset rest host _ => exact absurd host (noReset rest)
  | read i rest _ eq => rw [eq, (State.serveRead_eq _ i).1]; exact ⟨ph, rfl⟩
  | accept b rest _ ready _ => rcases ready with ready | ready <;> exact nomatch ph.symm.trans ready
  | deaf b rest _ _ eq | pause rest _ _ eq | idle _ _ eq => rw [eq]; exact ⟨ph, rfl⟩
  | run i rest _ exec _ _ _ => exact nomatch ph.symm.trans exec

/-- Settles O6: the decoder refuses the opcode as the first byte, and no step in FAULT takes a byte. -/
theorem reservedOpcodeLatchesFault : Obligations.ReservedOpcodeLatchesFault := by
  refine ⟨fun s b rest legal idle empty host reserved => ?_, fun s s' => step_fault⟩
  refine step_send_illegal (e := .reservedOpcode b) legal (.inl idle) host ?_
  rw [empty]
  exact parsePacket_reservedOpcode reserved []

/-- Settles O7: each of the five packets comes to its bit operand, which refuses the byte. -/
theorem reservedBitLatchesFault : Obligations.ReservedBitLatchesFault := by
  intro s c rest legal collect before h0 h1 host
  refine step_send_illegal (e := .reservedBit c) legal (.inr collect) host ?_
  have refused := withBit_reserved h0 h1
  rcases before with pkt | pkt | ⟨a0, a1, a2, a3, pkt⟩ | ⟨ch, a0, a1, a2, a3, pkt⟩ | ⟨a0, a1, a2, a3, pkt⟩
  · simp [pkt, parsePacket, parseFill, refused]
  · simp [pkt, parsePacket, parseInvert, refused]
  · simp [pkt, parsePacket, parseSetpx, refused]
  · simp [pkt, parsePacket, parseGlyphs, refused]
  · simp [pkt, parsePacket, parseText, refused]

/-! ### Controller commands (R91, R93) -/

/-- A decoder that has read an instruction reads the same one when more bytes follow, and leaves them. -/
def LeavesTheRest (P : List Byte → Parse) : Prop :=
  ∀ (bs : List Byte) (i : Instr) (r more : List Byte), P bs = .complete i r → P (bs ++ more) = .complete i (r ++ more)

namespace LeavesTheRest

theorem complete (i : Instr) : LeavesTheRest fun r => .complete i r := by
  intro bs j r more h
  cases h
  rfl

theorem illegal (e : Reject) : LeavesTheRest fun _ => .illegal e := fun _ _ _ _ h => nomatch h

/-- A decoder that needs a byte: it is enough to look at it after each possible first byte. -/
theorem cons {P : List Byte → Parse} (needs : P [] = .incomplete) (later : ∀ a, LeavesTheRest fun r => P (a :: r)) :
    LeavesTheRest P
  | [], _, _, _, h => nomatch needs.symm.trans h
  | a :: bs, i, r, more, h => later a bs i r more h

theorem ite {c : Prop} [Decidable c] {P Q : List Byte → Parse} (hP : LeavesTheRest P) (hQ : LeavesTheRest Q) :
    LeavesTheRest fun r => if c then P r else Q r := by
  by_cases hc : c
  · simpa only [if_pos hc] using hP
  · simpa only [if_neg hc] using hQ

theorem oneParam (k : Byte → Instr) : LeavesTheRest (oneParam k) := .cons rfl fun p => .complete (k p)

theorem twoParams (k : Byte → Byte → Instr) : LeavesTheRest (twoParams k) :=
  .cons rfl fun a => .cons rfl fun b => .complete (k a b)

/-- The command decoder, with any opcodes: row by row of R93. -/
theorem parseWire (o : Opc) : LeavesTheRest (parseWire o) :=
  .cons rfl fun _ =>
    .ite (.complete _) <| .ite (.oneParam _) <| .ite (.complete _) <| .ite (.complete _) <| .ite (.oneParam _) <|
    .ite (.complete _) <| .ite (.oneParam _) <| .ite (.oneParam _) <| .ite (.oneParam _) <| .ite (.oneParam _) <|
    .ite (.oneParam _) <| .ite (.oneParam _) <| .ite (.complete _) <| .ite (.complete _) <| .ite (.oneParam _) <|
    .ite (.twoParams _) <| .ite (.twoParams _) <| .illegal _

end LeavesTheRest

/-- Settles O3: the bytes alone complete the command at the last of them, and more bytes are left over. -/
theorem commandRoundTrip : Obligations.CommandRoundTrip := by
  intro i rest command
  obtain ⟨-, whole⟩ := encodeWire_completes_at_last command
  exact LeavesTheRest.parseWire Opc.std _ i [] rest whole

theorem State.BusMoved.busErr {s t : State} (h : s.BusMoved t) : t.busErr = s.busErr := by rw [h.1]

/-- Settles O49: the body sends the table's bytes to their end, and sending moves the bus side only. -/
theorem commandsSendTheirTableBytes : Obligations.CommandsSendTheirTableBytes := by
  intro s i bs r row bus
  obtain ⟨t, sent, rest, -⟩ := sendBytes_left (List.getLast?_eq_some_getLast row.ne_nil) bus
  have sends := Sends.sequenced.of_sendBytes bs s
  have moved := sendBytes_moved bs s
  rw [sent] at sends moved
  obtain ⟨-, trace, drawn, -, -⟩ := sends
  exact ⟨t.complete, by rw [exec_eq_next, row.bodyOf_eq, sent, Run.next_ok], trace, rest,
    by simpa using drawn, moved.fb, moved.life, moved.busErr, rfl, rfl⟩

/-! ### Two closed cases -/

/-- Settles O1: each word through the decoder. -/
theorem specWordsDecode : Obligations.SpecWordsDecode := by
  unfold Obligations.SpecWordsDecode
  decide

/-- Settles O38: with no character neither loop draws, and the pen of the operation is gone at its end. -/
theorem emptyStringsChangeNothing : Obligations.EmptyStringsChangeNothing := fun _ _ _ _ => ⟨rfl, rfl⟩

end Sys2Proof.Machine
end

section
/-! PROOFS. The obligations of 40_framebuffer.md: the bytes and pixels FILL, SETPX and SCROLL leave, and that drawing
after a FILL goes by the configuration alone. -/
namespace Sys2Proof.Machine

/-! ### The end of a drawing operation -/

/-- A drawing operation ends with OK and touches neither the wire nor the status (R221, R259). -/
theorem bodyOf_next_drawing {i : Instr} (drawing : isDrawing i = true) (s : State) :
    (bodyOf i s).next.rsp = some .ok ∧ (bodyOf i s).next.trace = s.trace ∧ (bodyOf i s).next.busErr = s.busErr ∧
      (bodyOf i s).next.life = s.life := by
  obtain ⟨fb, body⟩ := bodyOf_drawing drawing s
  rw [body]
  exact ⟨rfl, rfl, rfl, rfl⟩

/-! ### FILL (R111) -/

/-- Each bit of the byte that fills is the colour. -/
theorem bitAt_fillByte (c : Bit) {k : Nat} (hk : k < 8) : bitAt (fillByte c) k = c := by
  have table : ∀ c : Bit, ∀ k < 8, bitAt (fillByte c) k = c := by decide
  exact table c k hk

theorem State.fbRead_fillFb (s : State) (v : Byte) {k : Nat} (hk : k < s.cfg.len) : (s.fillFb v).fbRead k = v :=
  s.fbRead_fbSetAll _ hk

theorem State.px_fillFb {s : State} (height : s.cfg.h % 8 = 0) (c : Bit) {x y : Int}
    (hr : inRange s.cfg x y = true) : (s.fillFb (fillByte c)).px x y = c :=
  (congrArg (bitAt · (pixelBit y)) (s.fbRead_fillFb _ (pixelByte_lt height hr))).trans
    (bitAt_fillByte c (pixelBit_lt y))

/-- Settles O30: every byte below `LEN` is the byte that fills, each of whose bits is the colour. -/
theorem fillSetsEveryPixel : Obligations.FillSetsEveryPixel := fun s c =>
  ⟨_, exec_eq_next (.fill c) s, rfl, fun _ hk => s.fbRead_fillFb _ hk,
    fun legal _ _ hr => State.px_fillFb (Cfg.legal_h legal) c hr, fun _ => ⟨_, exec_eq_next (.fill c) _, rfl⟩⟩

/-! ### SETPX (R112, R113) -/

theorem State.setPx_inside {s : State} {x y : Int} (hr : inRange s.cfg x y = true) (c : Bit) :
    s.setPx x y c =
      s.fbWrite (pixelByte s.cfg x y) (withBitAt (s.fbRead (pixelByte s.cfg x y)) (pixelBit y) c) := if_pos hr

theorem State.setPx_outside {s : State} {x y : Int} (hr : inRange s.cfg x y = false) (c : Bit) :
    s.setPx x y c = s := if_neg (by simp [hr])

/-- The byte `SetPx` addresses takes the colour in the pixel's bit (R112). -/
theorem State.fbRead_setPx_same {s : State} {x y : Int} (hr : inRange s.cfg x y = true) (c : Bit) :
    (s.setPx x y c).fbRead (pixelByte s.cfg x y) =
      withBitAt (s.fbRead (pixelByte s.cfg x y)) (pixelBit y) c := by
  rw [State.setPx_inside hr, State.fbRead_fbWrite_same]

/-- Settles O31: in range the pixel's byte is written and no other, out of range none. -/
theorem setPxWritesOneBit : Obligations.SetPxWritesOneBit := by
  intro s x y c
  obtain ⟨fb, body⟩ := bodyOf_drawing (i := .setpx x y c) rfl s
  refine ⟨_, exec_eq_next (.setpx x y c) s, by rw [body]; rfl, ?_⟩
  cases hr : inRange s.cfg x.toInt y.toInt with
  | true =>
    rw [if_pos (inRange_iff.1 hr)]
    exact ⟨State.fbRead_setPx_same hr c, fun k hk => s.fbRead_setPx_other x.toInt y.toInt c fun _ => hk⟩
  | false =>
    rw [if_neg fun inside => by simp [inRange_iff.2 inside] at hr]
    exact (congrArg State.fb (State.setPx_outside hr c) :)

/-- Settles O32: what one `SetPx` does to the pixels in range. -/
theorem setpxSetsOnePixel : Obligations.SetpxSetsOnePixel := by
  intro s x y c
  obtain ⟨rsp, trace, busErr, life⟩ := bodyOf_next_drawing (i := .setpx x y c) rfl s
  exact ⟨_, exec_eq_next (.setpx x y c) s, rsp, trace, busErr, life, fun _ _ hr => s.px_setPx x.toInt y.toInt c hr,
    fun hr => (congrArg State.fb (State.setPx_outside hr c) :)⟩

/-! ### SCROLL (R114) -/

/-- Every bit of every byte of `FB` is a pixel in range (R51: the map is a bijection). -/
theorem exists_pixel {c : Cfg} {i k : Nat} (hi : i < c.len) (hk : k < 8) :
    ∃ x y, inRange c x y = true ∧ pixelByte c x y = i ∧ pixelBit y = k := by
  have width : 0 < c.w := Nat.pos_of_ne_zero fun h => by simp [Cfg.len, h] at hi
  have column : i % c.w < c.w := Nat.mod_lt i width
  have page : i / c.w < c.h / 8 := (Nat.div_lt_iff_lt_mul width).2 hi
  have row : (8 * (i / c.w) + k) / 8 = i / c.w := by omega
  refine ⟨(i % c.w : Nat), (8 * (i / c.w) + k : Nat), inRange_iff.2 (by omega), ?_, ?_⟩
  · rw [pixelByte, Int.toNat_natCast, Int.toNat_natCast, row, Nat.div_add_mod']
  · rw [pixelBit, Int.toNat_natCast]
    omega

/-- The pixels in range decide the bytes of `FB`. -/
theorem State.fbRead_eq_of_px {s t : State} (cfg : t.cfg = s.cfg)
    (pixels : ∀ x y, inRange s.cfg x y = true → t.px x y = s.px x y) {i : Nat} (hi : i < s.cfg.len) :
    t.fbRead i = s.fbRead i := by
  refine byte_eq_of_bitAt fun k hk => ?_
  obtain ⟨x, y, hr, rfl, rfl⟩ := exists_pixel hi hk
  have pixel := pixels x y hr
  rwa [State.px, cfg] at pixel

/-- A pixel after SCROLL, by whether its source lies in range. -/
theorem State.px_scroll {s : State} (height : s.cfg.h % 8 = 0) (dx dy : Int) {x y : Int}
    (hr : inRange s.cfg x y = true) :
    (s.setAllPx (s.scrolled dx dy)).px x y =
      if 0 ≤ x - dx ∧ x - dx < s.cfg.w ∧ 0 ≤ y - dy ∧ y - dy < s.cfg.h then s.px (x - dx) (y - dy)
      else s.cfg.scrollFill := by
  rw [State.px_setAllPx s height _ hr]
  simp only [State.scrolled, inRange_iff]

/-- Settles O33: by no distance every source is the pixel itself, by the width or the height none is in range. -/
theorem scrollMovesEveryPixel : Obligations.ScrollMovesEveryPixel := by
  intro s dx dy legal
  obtain ⟨rsp, trace, busErr, life⟩ := bodyOf_next_drawing (i := .scroll dx dy) rfl s
  have moved (x y : Int) (hr : inRange s.cfg x y = true) :=
    State.px_scroll (Cfg.legal_h legal) dx.toInt dy.toInt hr
  refine ⟨_, exec_eq_next (.scroll dx dy) s, rsp, trace, busErr, life, moved, ?_, fun far x y hr => ?_, rfl⟩
  · rintro rfl rfl k hk
    refine State.fbRead_eq_of_px (s := s) (t := s.setAllPx (s.scrolled 0 0)) rfl (fun x y hr => ?_) hk
    simpa [inRange_iff.1 hr] using moved x y hr
  · refine (moved x y hr).trans (if_neg fun source => ?_)
    have inside := inRange_iff.1 hr
    rw [le_abs, le_abs] at far
    omega

/-! ### Drawing after a FILL (R115, R251) -/

/-- Two PSDCs of one configuration with a height R9 allows, whose `FB` lists the same bytes, every one below `LEN`
among them: so that no byte either reads is left from its reset. -/
structure State.SameDrawn (s u : State) : Prop where
  cfg : u.cfg = s.cfg
  height : s.cfg.h % 8 = 0
  fb : u.fb = s.fb
  written : ∀ k < s.cfg.len, (Memory.read s.fb k).isSome = true

namespace State.SameDrawn

/-- Setting all of `FB` makes it so, whatever it held. -/
theorem fbSetAll {s u : State} (cfg : u.cfg = s.cfg) (height : s.cfg.h % 8 = 0) (f : Nat → Byte) :
    (s.fbSetAll f).SameDrawn (u.fbSetAll f) where
  cfg := cfg
  height := height
  fb := by rw [State.fbSetAll_fb, State.fbSetAll_fb, cfg]
  written k hk := by
    rw [State.fbSetAll_cfg] at hk
    rw [State.fbSetAll_fb, Memory.read_ofFun, if_pos hk, Option.isSome_some]

section
variable {s u : State} (h : s.SameDrawn u)
include h

theorem setPen (p q : Option Int) : (s.setPen p).SameDrawn (u.setPen q) := ⟨h.cfg, h.height, h.fb, h.written⟩

theorem complete : s.complete.SameDrawn u.complete := ⟨h.cfg, h.height, h.fb, h.written⟩

theorem fbRead {k : Nat} (hk : k < s.cfg.len) : u.fbRead k = s.fbRead k := by
  obtain ⟨v, listed⟩ := Option.isSome_iff_exists.1 (h.written k hk)
  simp [State.fbRead, h.fb, listed]

theorem px {x y : Int} (hr : inRange s.cfg x y = true) : u.px x y = s.px x y := by
  rw [State.px, h.cfg, h.fbRead (pixelByte_lt h.height hr), State.px]

theorem fbWrite (i : Nat) (v : Byte) : (s.fbWrite i v).SameDrawn (u.fbWrite i v) where
  cfg := h.cfg
  height := h.height
  fb := by rw [State.fbWrite_fb, State.fbWrite_fb, h.fb]
  written k hk := by
    rw [State.fbWrite_fb]
    by_cases eq : k = i
    · rw [eq, Memory.read_write_same, Option.isSome_some]
    · rw [Memory.read_write_other _ _ eq]
      exact h.written k hk

theorem setPx (x y : Int) (c : Bit) : (s.setPx x y c).SameDrawn (u.setPx x y c) := by
  cases hr : inRange s.cfg x y with
  | true =>
    rw [State.setPx_inside hr, State.setPx_inside (h.cfg ▸ hr), h.cfg, h.fbRead (pixelByte_lt h.height hr)]
    exact h.fbWrite _ _
  | false =>
    rw [State.setPx_outside hr, State.setPx_outside (h.cfg ▸ hr)]
    exact h

theorem scroll (dx dy : Int) : (s.setAllPx (s.scrolled dx dy)).SameDrawn (u.setAllPx (u.scrolled dx dy)) := by
  have sources : u.scrolled dx dy = s.scrolled dx dy := by
    funext x y
    unfold State.scrolled
    rw [h.cfg]
    split
    · exact h.px ‹_›
    · rfl
  unfold State.setAllPx
  rw [sources, h.cfg]
  exact fbSetAll h.cfg h.height _

end

theorem paint {s u : State} (h : s.SameDrawn u) (x y : Int) (c : Bit) (ps : List (Nat × Nat)) :
    (State.paint x y c ps s).SameDrawn (State.paint x y c ps u) := by
  induction ps generalizing s u with
  | nil => exact h
  | cons p ps ih => exact ih (h.setPx _ _ c)

theorem drawGlyph {s u : State} (h : s.SameDrawn u) (ch : Byte) (x y : Int) (c : Bit) (scale : Nat) :
    (s.drawGlyph ch x y c scale).SameDrawn (u.drawGlyph ch x y c scale) := by
  unfold State.drawGlyph
  rw [h.cfg]
  exact h.paint x y c _

theorem drawFontChar {s u : State} (h : s.SameDrawn u) (ch : Byte) (x y : Int) (c : Bit) :
    (s.drawFontChar ch x y c).SameDrawn (u.drawFontChar ch x y c) := by
  unfold State.drawFontChar
  rw [h.cfg]
  exact h.paint x y c _

/-- The loop starts from one pen in both, and moves it by the text and the configuration. -/
theorem textsLoop {s u : State} (h : s.SameDrawn u) (pen : u.pen = s.pen) (x y : Int) (t : List Byte) :
    (textsLoop x y t s).SameDrawn (textsLoop x y t u) := by
  induction t generalizing s u with
  | nil => exact h
  | cons ch t ih =>
    unfold Machine.textsLoop
    rw [show u.penPos = s.penPos from congrArg (Option.getD · 0) pen, h.cfg]
    exact ih ((h.drawGlyph ch _ y 1 2).setPen _ _) rfl

theorem textLoop {s u : State} (h : s.SameDrawn u) (pen : u.pen = s.pen) (x y : Int) (c : Bit) (t : List Byte) :
    (textLoop x y c t s).SameDrawn (textLoop x y c t u) := by
  induction t generalizing s u with
  | nil => exact h
  | cons ch t ih =>
    unfold Machine.textLoop
    rw [show u.penPos = s.penPos from congrArg (Option.getD · 0) pen]
    exact ih ((h.drawFontChar ch _ y c).setPen _ _) rfl

/-- A drawing operation keeps it. -/
theorem drawing {s u : State} (h : s.SameDrawn u) {i : Instr} (drawing : isDrawing i = true) :
    (bodyOf i s).next.SameDrawn (bodyOf i u).next := by
  cases i with
  | fill c => exact (fbSetAll h.cfg h.height _).complete
  | setpx x y c => exact (h.setPx _ _ c).complete
  | scroll dx dy => exact (h.scroll _ _).complete
  | glyphs ch x y c sc => exact (h.drawGlyph ch _ _ c _).complete
  | texts t x y => exact (((h.setPen (some 0) (some 0)).textsLoop rfl _ _ t).setPen none none).complete
  | text t x y c => exact (((h.setPen (some 0) (some 0)).textLoop rfl _ _ c t).setPen none none).complete
  | _ => exact nomatch drawing

end State.SameDrawn

theorem runOps_cons (i : Instr) (is : List Instr) (s : State) : runOps (i :: is) s = runOps is (bodyOf i s).next := by
  rw [runOps, exec_eq_next]

/-- Drawing operations, one after another, run to their end and list the same bytes in both. -/
theorem State.SameDrawn.runOps {s u : State} (h : s.SameDrawn u) {ops : List Instr}
    (drawing : ∀ i ∈ ops, isDrawing i = true) :
    ∃ t v, runOps ops s = some t ∧ runOps ops u = some v ∧ t.fb = v.fb := by
  induction ops generalizing s u with
  | nil => exact ⟨s, u, rfl, rfl, h.fb.symm⟩
  | cons i ops ih =>
    rw [runOps_cons, runOps_cons]
    exact ih (h.drawing (drawing i List.mem_cons_self)) fun j hj => drawing j (List.mem_cons_of_mem i hj)

/-- Settles O39: the FILL lists every byte of `FB`, the same in both, and each drawing operation keeps that. -/
theorem drawingIsDeterministicFromFill : Obligations.DrawingIsDeterministicFromFill := by
  intro s1 s2 c ops cfg legal drawing
  have filled := (State.SameDrawn.fbSetAll cfg.symm (Cfg.legal_h legal) fun _ => fillByte c).complete
  rw [runOps_cons, runOps_cons]
  exact filled.runOps drawing

end Sys2Proof.Machine
end

section
/-! PROOFS. The obligations of 41_transport.md: the three ends an instruction can come to, and what the reset pulse of
PWRON does to the informative receiver. -/
namespace Sys2Proof.Machine

/-! ### The end of every instruction (R138, R221, R222) -/

/-- A body that waits for ever leaves the transaction it waits on (R138). -/
theorem bodyOf_hung_wait {i : Instr} {s t : State} (h : bodyOf i s = .hung t) : t.wait.isSome = true := by
  have hi : i ≠ .pwron := by
    rintro rfl
    exact nomatch h
  have sends := bodyOf_sends hi s
  rw [h] at sends
  cases sends with
  | hung _ _ _ _ _ _ _ _ _ wait => exact wait

/-- Settles O26: the three ends are the three results of a body, which itself moves neither the packet nor the status;
the bodies of drawing and PWRON always run to their end. -/
theorem everyInstructionEndsOneOfThreeWays : Obligations.EveryInstructionEndsOneOfThreeWays := by
  intro i s
  refine ⟨_, exec_eq_next i s, ?ends, ?ok⟩
  case ends =>
    have moved := bodyOf_moved i s
    cases body : bodyOf i s with rw [body] at moved
    | ok t => exact .inl ⟨rfl, rfl, rfl, moved.busErr⟩
    | failed t => exact .inr (.inl ⟨rfl, rfl, rfl, rfl⟩)
    | hung t =>
      have wait : t.wait.isSome = true := bodyOf_hung_wait body
      exact .inr (.inr ⟨rfl, moved.pkt, wait, moved.rsp, moved.busErr⟩)
  case ok =>
    rintro (drawing | rfl)
    · obtain ⟨rsp, -⟩ := bodyOf_next_drawing drawing s
      exact rsp
    · rfl

/-! ### The reset pulse and the receiver (R146, R160) -/

/-- The events of the pulse: high, at least 1 ms, low, at least 10 ms, high (R160). -/
def resetPulseEvents : List Event := [.sigRes 1, .delay 1000, .sigRes 0, .delay 10000, .sigRes 1]

/-- On the chip-select transport PWRON puts the pulse on the wire. -/
theorem State.powerOn_trace_cs {s : State} (cs : s.cfg.transport = .cs) :
    s.powerOn.trace = s.trace ++ resetPulseEvents := by
  unfold State.powerOn
  rw [cs, State.resetPulse_eq, resetPulseEvents]

@[simp] theorem Rx.resetLine_low (rx : Rx) : rx.resetLine 0#1 = { Config.rxPowerOn with held := true } := rfl
@[simp] theorem Rx.resetLine_high (rx : Rx) : rx.resetLine 1#1 = { rx with held := false } := rfl

/-- The low level returns the receiver to its power-on defaults whatever it held, the last high one releases it. -/
theorem Rx.run_resetPulse (c : Cfg) (rx : Rx) :
    Rx.run c resetPulseEvents rx = { Config.rxPowerOn with held := false } := by
  simp [Rx.run, Rx.event, resetPulseEvents]

/-- Settles O60: PWRON adds the pulse, and the receiver takes it. -/
theorem pwronReturnsTheControllerToPowerOn : Obligations.PwronReturnsTheControllerToPowerOn := fun s rx cs =>
  ⟨_, _, exec_eq_next .pwron s, State.powerOn_trace_cs cs, Rx.run_resetPulse s.cfg rx⟩

end Sys2Proof.Machine
end

section
/-! PROOFS. The obligations of 42_display_commands.md: what the serializer's operations send, and what they leave when
every transaction is answered `Done` and when one fails. -/
namespace Sys2Proof.Machine

/-! ### PWRON (R160) -/

theorem State.powerOn_reg {s : State} (reg : s.cfg.transport = .reg) :
    s.powerOn = { s with life := .powered } := by
  unfold State.powerOn
  rw [reg]

theorem State.powerOn_cs {s : State} (cs : s.cfg.transport = .cs) :
    s.powerOn = { s with life := .powered, res := 1, trace := s.trace ++ resetPulseEvents } := by
  unfold State.powerOn
  rw [cs, State.resetPulse_eq, resetPulseEvents]

/-- Settles O40: the body on each transport, then the end with OK. -/
theorem pwronPulsesResetOnCs : Obligations.PwronPulsesResetOnCs := by
  intro s
  refine ⟨fun reg => ?_, fun cs => ?_⟩
  · rw [exec_eq_next, bodyOf_pwron, State.powerOn_reg reg]
    rfl
  · rw [exec_eq_next, bodyOf_pwron, State.powerOn_cs cs]
    rfl

/-! ### An operation whose transactions are all answered `Done` (R136) -/

/-- A piece whose transactions are all answered `Done` draws these answers and leaves the rest of the bus's list. -/
theorem Sends.all_done {gs : List (List Event)} {s : State} {r : Run} (h : Sends gs s r) {rest : List Reply}
    (bus : s.bus = List.replicate gs.length .done ++ rest) :
    ∃ t, r = .ok t ∧ t.trace = s.trace ++ gs.flatten ∧ t.drawn = s.drawn ++ List.replicate gs.length .done ∧
      t.bus = rest ∧ t.wait = s.wait := by
  obtain ⟨t, rfl, trace⟩ := h.done bus
  cases h with
  | ok _ _ drawn bus' wait => exact ⟨t, rfl, trace, drawn, List.append_cancel_left (bus'.symm.trans bus), wait⟩

theorem Run.andThen_eq_ok {r : Run} {f : State → State} {t : State} (h : r.andThen f = .ok t) :
    ∃ u, r = .ok u ∧ t = f u := by
  cases r with
  | ok u => injection h with h; exact ⟨u, rfl, h.symm⟩
  | failed u => exact nomatch h
  | hung u => exact nomatch h

/-! ### The operations that only send (R163 to R166) -/

/-- An operation that only sends has ended in `t`: the bus side has moved, to the list `r`, and the phase, the packet
and the response are those of an end; `BUSERR` and `LIFE` are given, and nothing else has changed. -/
def State.EmissionEnd (s : State) (r : List Reply) (rsp : Rsp) (busErr : Bool) (life : Life) (t : State) : Prop :=
  t = { s with
    temp0 := t.temp0, temp1 := t.temp1, csel := t.csel, dc := t.dc, clkCfg := t.clkCfg, trace := t.trace,
    drawn := t.drawn, bus := r, ph := .idle, pkt := [], wire := [], rsp := some rsp, busErr := busErr, life := life }

theorem State.EmissionEnd.fields {s t : State} {r : List Reply} {rsp : Rsp} {busErr : Bool} {life : Life}
    (h : s.EmissionEnd r rsp busErr life t) :
    t.rsp = some rsp ∧ t.busErr = busErr ∧ t.life = life ∧ t.bus = r ∧ t.fb = s.fb ∧ t.fbDraw = s.fbDraw := by
  unfold State.EmissionEnd at h
  rw [h]
  exact ⟨rfl, rfl, rfl, rfl, rfl, rfl⟩

namespace State.SerialMoved
variable {s t : State} {r : List Reply}

theorem emissionEnd_complete {l : Life} (h : s.SerialMoved t) (fb : t.fb = s.fb) (wait : t.wait = s.wait)
    (bus : t.bus = r) (life : t.life = l) : s.EmissionEnd r .ok s.busErr l t.complete := by
  unfold State.SerialMoved at h
  rw [fb, wait, bus, life] at h
  unfold State.EmissionEnd
  rw [h]
  rfl

theorem emissionEnd_raiseBusFailure (h : s.SerialMoved t) (fb : t.fb = s.fb) (wait : t.wait = s.wait)
    (bus : t.bus = r) (life : t.life = s.life) : s.EmissionEnd r .busFailure true s.life t.raiseBusFailure := by
  unfold State.SerialMoved at h
  rw [fb, wait, bus, life] at h
  unfold State.EmissionEnd
  rw [h]
  rfl

end State.SerialMoved

theorem isEmission.ne_pwron {i : Instr} (h : isEmission i) : i ≠ .pwron := by
  rintro rfl
  simp [isEmission, Instr.isHost] at h

theorem isEmission.ne_init {i : Instr} (h : isEmission i) : i ≠ .init := by
  rintro rfl
  simp [isEmission, Instr.isHost] at h

section
variable {i : Instr} (emission : isEmission i) {s : State} {r : List Reply}
include emission

/-- An operation that only sends, with an answer `Done` for each of its transactions; `l` is the `LIFE` its body ends
with. -/
theorem exec_emission_done (bus : s.bus = List.replicate (txnsOf s.cfg s.fbBytes i).length .done ++ r) {l : Life}
    (life : ∀ t, bodyOf i s = .ok t → t.life = l) :
    ∃ t, exec i s = .next t ∧ s.EmissionEnd r .ok s.busErr l t ∧
      t.trace = s.trace ++ (txnsOf s.cfg s.fbBytes i).flatten := by
  obtain ⟨t, body, trace, -, rest, wait⟩ := (bodyOf_sends emission.ne_pwron s).all_done bus
  obtain ⟨moved, fb, -⟩ := bodyOf_emission emission s
  rw [body] at moved fb
  exact ⟨t.complete, by rw [exec_eq_next, body, Run.next_ok],
    moved.emissionEnd_complete fb wait rest (life t body), trace⟩

/-- An operation that only sends, with `Fail` for transaction `k`: it has sent that one and none after it. -/
theorem exec_emission_fail {k : Nat} (lt : k < (txnsOf s.cfg s.fbBytes i).length)
    (bus : s.bus = List.replicate k .done ++ .fail :: r) :
    ∃ t, exec i s = .next t ∧ s.EmissionEnd r .busFailure true s.life t ∧
      t.trace = s.trace ++ ((txnsOf s.cfg s.fbBytes i).take (k + 1)).flatten := by
  obtain ⟨t, body, trace, -, rest, wait⟩ := (bodyOf_sends emission.ne_pwron s).failed_at lt (.inl rfl) bus
  have moved := bodyOf_failed_moved emission.ne_init body
  exact ⟨t.raiseBusFailure, by rw [exec_eq_next, body, Run.next_failed],
    (State.SerialMoved.of_busMoved moved).emissionEnd_raiseBusFailure moved.fb wait rest moved.life, trace⟩

/-- All of them but PWROFF end with the `LIFE` they began with (R31). -/
theorem bodyOf_emission_life (hi : i ≠ .pwroff) (t : State) (body : bodyOf i s = .ok t) : t.life = s.life := by
  obtain ⟨-, -, life⟩ := bodyOf_emission emission s
  rw [body] at life
  exact life hi

end

/-- PWROFF that ran to its end leaves SLEEP (R166). -/
theorem bodyOf_pwroff_life {s t : State} (body : bodyOf .pwroff s = .ok t) : t.life = .sleep := by
  obtain ⟨u, -, rfl⟩ := Run.andThen_eq_ok body
  rfl

/-- Settles O46: CONTRAST has two transactions, and either may be the one that fails. -/
theorem contrastSendsTwoCommands : Obligations.ContrastSendsTwoCommands := by
  intro s v r
  have emission : isEmission (.contrast v) := .inr (.inl ⟨v, rfl⟩)
  refine ⟨fun bus => ?_, fun bus => ?_, fun bus => ?_⟩
  · simpa [txnsOf, State.EmissionEnd] using
      exec_emission_done emission (r := r) bus (bodyOf_emission_life emission (by simp))
  · simpa [txnsOf, State.EmissionEnd] using exec_emission_fail emission (k := 0) (r := r) (by simp [txnsOf]) bus
  · simpa [txnsOf, State.EmissionEnd] using exec_emission_fail emission (k := 1) (r := r) (by simp [txnsOf]) bus

/-- Settles O47: INVERT has one transaction. -/
theorem invertSendsOneCommand : Obligations.InvertSendsOneCommand := by
  intro s b r
  have emission : isEmission (.invert b) := .inr (.inr (.inl ⟨b, rfl⟩))
  refine ⟨fun bus => ?_, fun bus => ?_⟩
  · simpa [txnsOf, State.EmissionEnd] using
      exec_emission_done emission (r := r) bus (bodyOf_emission_life emission (by simp))
  · simpa [txnsOf, State.EmissionEnd] using exec_emission_fail emission (k := 0) (r := r) (by simp [txnsOf]) bus

/-! ### Drawing and SHOW in SLEEP (R166) -/

/-- No drawing operation moves `LIFE`, nor does SHOW (R31). -/
theorem bodyOf_life_kept {i : Instr} (h : isDrawing i = true ∨ i = .showFrame) (s : State) :
    (bodyOf i s).state.life = s.life := by
  refine (bodyOf_life i s).resolve_right fun ⟨_, _, move⟩ => ?_
  rcases move with ⟨rfl, -⟩ | ⟨rfl, -⟩ | ⟨rfl, -⟩ <;> simp [isDrawing] at h

theorem Run.withLife_state (r : Run) (l : Life) : (r.withLife l).state = r.state.withLife l := by cases r <;> rfl

/-- Drawing and SHOW end the same from another `LIFE`, which is still there at their end. -/
theorem bodyOf_withLife_kept {i : Instr} (h : isDrawing i = true ∨ i = .showFrame) (s : State) (l : Life) :
    bodyOf i (s.withLife l) = (bodyOf i s).withLife l := by
  obtain ⟨m, body⟩ := bodyOf_withLife s l i
  have kept := bodyOf_life_kept h (s.withLife l)
  rw [body, Run.withLife_state] at kept
  obtain rfl : m = l := kept
  exact body

/-- Settles O48: PWROFF has one transaction, and drawing and SHOW come to the same end in SLEEP as in ON. -/
theorem pwroffSendsDisplayOff : Obligations.PwroffSendsDisplayOff := by
  have emission : isEmission .pwroff := .inr (.inr (.inr (.inl rfl)))
  refine ⟨fun s r => ⟨fun bus => ?done, fun bus => ?fail⟩, fun i s t h he => ?sleep⟩
  case done =>
    simpa [txnsOf, State.EmissionEnd] using
      exec_emission_done emission (r := r) bus fun t body => bodyOf_pwroff_life body
  case fail =>
    simpa [txnsOf, State.EmissionEnd] using exec_emission_fail emission (k := 0) (r := r) (by simp [txnsOf]) bus
  case sleep =>
    obtain rfl := next_of_exec he
    have body := bodyOf_withLife_kept h { s with life := .on } .sleep
    have ends := (congrArg Run.next body).trans (Run.next_withLife _ _)
    exact (exec_eq_next i _).trans (congrArg Host.Outcome.next ends)

/-- Settles O44: SHOW sends the window and then `FB`, and only sends. -/
theorem showSendsTheWindowAndTheFramebuffer : Obligations.ShowSendsTheWindowAndTheFramebuffer := by
  intro s r
  have emission : isEmission .showFrame := .inl rfl
  refine ⟨fun bus => ?_, fun k lt bus => ?_⟩
  · obtain ⟨t, he, frame, trace⟩ := exec_emission_done emission bus (bodyOf_emission_life emission (by simp))
    rw [txnsOf_showFrame_flatten, flushEvents, ← List.append_assoc] at trace
    obtain ⟨rsp, busErr, life, rest, fb, fbDraw⟩ := frame.fields
    exact ⟨t, he, rsp, fb, fbDraw, life, busErr, rest, trace⟩
  · obtain ⟨t, he, frame, -⟩ := exec_emission_fail emission lt bus
    obtain ⟨rsp, busErr, life, -, fb, fbDraw⟩ := frame.fields
    exact ⟨t, he, rsp, busErr, fb, fbDraw, life⟩

/-! ### INIT (R161, R162) -/

/-- Settles O41: the table's bytes by computation, and a walk that sends them one by one. -/
theorem initTableIsTheSpecTable : Obligations.InitTableIsTheSpecTable := by
  refine ⟨fun c => ⟨rfl, initTable_bytes c, rfl⟩, fun c opc height supply => ?literal, fun s r bus => ?walk⟩
  case literal =>
    rw [initBytes, opc, height, supply]
    rfl
  case walk =>
    obtain ⟨t, sent, -, trace, rest, -⟩ := sendBytes_done (initBytes s.cfg) bus
    exact ⟨t, by rw [walk_eq_sendBytes, initTable_bytes, sent], trace, rest⟩

/-- INIT that ran to its end leaves ON (R161). -/
theorem bodyOf_init_life {s t : State} (body : bodyOf .init s = .ok t) : t.life = .on := by
  obtain ⟨u, -, rfl⟩ := Run.andThen_eq_ok body
  rfl

/-- INIT whose table fails stops before it clears `FB` (R161, R137). -/
theorem bodyOf_init_fb_of_table_fails {s : State} {k : Nat} {r : List Reply} (lt : k < 25)
    (bus : s.bus = List.replicate k .done ++ .fail :: r) : (bodyOf .init s).state.fb = s.fb := by
  obtain ⟨t, sent, moved, -⟩ := sendBytes_fail (initBytes s.cfg) lt (.inl rfl) bus
  rw [bodyOf, State.initBody, walk_eq_sendBytes, initTable_bytes, sent]
  exact moved.fb

/-- INIT whose table is answered `Done` clears `FB`, whatever becomes of the flush (R161). -/
theorem bodyOf_init_fb_of_table_done {s : State} {r : List Reply} (bus : s.bus = List.replicate 25 .done ++ r) :
    (bodyOf .init s).state.fb = (s.fillFb 0x00).fb := by
  obtain ⟨t, sent, moved, -⟩ := sendBytes_done (initBytes s.cfg) bus
  have cleared : (t.fillFb 0x00).fb = (s.fillFb 0x00).fb := by
    rw [State.fillFb, State.fbSetAll_fb, moved.cfg]; rfl
  rw [bodyOf, State.initBody, walk_eq_sendBytes, initTable_bytes, sent, Run.bind_ok]
  refine Eq.trans ?_ ((t.fillFb 0x00).showBody_moved.fb.trans cleared)
  cases (t.fillFb 0x00).showBody <;> rfl

/-- Then every byte of `FB` reads as 0 at the end of INIT. -/
theorem fbRead_init_of_table_done {s : State} {r : List Reply} (bus : s.bus = List.replicate 25 .done ++ r) {k : Nat}
    (hk : k < s.cfg.len) : (bodyOf .init s).next.fbRead k = 0x00 := by
  have fb : (bodyOf .init s).next.fb = (s.fillFb 0x00).fb :=
    (Run.next_fb _).trans (bodyOf_init_fb_of_table_done bus)
  have draw : (bodyOf .init s).next.fbDraw = s.fbDraw := (Run.next_fbDraw _).trans (bodyOf_moved .init s).fbDraw
  exact (State.fbRead_congr (s := s.fillFb 0x00) fb draw k).trans (s.fbRead_fillFb 0x00 hk)

/-- Settles O42: INIT sends its transactions to their end, and its table is the first 25 of them. -/
theorem initSendsTheTableClearsAndFlushes : Obligations.InitSendsTheTableClearsAndFlushes := by
  intro s r bus
  obtain ⟨t, body, trace, drawn, rest, -⟩ := (bodyOf_sends (i := .init) (by simp) s).all_done bus
  have life : t.life = .on := bodyOf_init_life body
  have moved := bodyOf_moved .init s
  have cleared {k : Nat} (hk : k < s.cfg.len) :=
    fbRead_init_of_table_done (r := List.replicate 7 .done ++ r) bus hk
  rw [body] at moved cleared
  refine ⟨t.complete, by rw [exec_eq_next, body, Run.next_ok], rfl, rfl, life, moved.busErr, rest, drawn,
    trace.trans ?_, fun k hk => cleared hk⟩
  simp [txnsOf, cmdsEvents, List.flatMap_def]

/-- Settles O43: the transaction that fails is one of the table or comes after it. -/
theorem initFailureClearsOnlyAfterTheTable : Obligations.InitFailureClearsOnlyAfterTheTable := by
  intro s k r lt bus
  obtain ⟨t, body, -, -, rest, -⟩ := (bodyOf_sends (i := .init) (by simp) s).failed_at lt (.inl rfl) bus
  have life : t.life = s.life := bodyOf_failed_life body
  have kept (before : k < 25) := bodyOf_init_fb_of_table_fails before bus
  have cleared (after : 25 ≤ k) {j : Nat} (hj : j < s.cfg.len) : (bodyOf .init s).next.fbRead j = 0x00 := by
    obtain ⟨m, rfl⟩ := Nat.exists_eq_add_of_le after
    rw [List.replicate_add, List.append_assoc] at bus
    exact fbRead_init_of_table_done bus hj
  rw [body] at kept cleared
  exact ⟨t.raiseBusFailure, by rw [exec_eq_next, body, Run.next_failed], rfl, rfl, rfl, life, rest, kept,
    fun after j hj => cleared after hj⟩

end Sys2Proof.Machine
end

section
/-! PROOFS. The obligations of 43_text_renderer.md: the pixels GLYPHS, TEXTS and TEXT paint, and that they leave every
other pixel. -/
namespace Sys2Proof.Machine

/-! ### Painting in one colour -/

/-- From `s` to `t` the pixels in range that are hit took the colour, and every other one kept its own. -/
structure State.Painted (hit : Int → Int → Prop) (c : Bit) (s t : State) : Prop where
  cfg : t.cfg = s.cfg
  pixel : ∀ x y, inRange s.cfg x y = true → (hit x y → t.px x y = c) ∧ (¬ hit x y → t.px x y = s.px x y)

namespace State.Painted
variable {hit hit' : Int → Int → Prop} {c : Bit} {s t u : State}

/-- Where nothing is hit, nothing changes. -/
theorem nothing (none : ∀ x y, ¬ hit x y) : Painted hit c s s where
  cfg := rfl
  pixel x y _ := ⟨fun h => absurd h (none x y), fun _ => rfl⟩

theorem congr (h : Painted hit c s t) (same : ∀ x y, hit' x y ↔ hit x y) : Painted hit' c s t where
  cfg := h.cfg
  pixel x y hr := by
    rw [same]
    exact h.pixel x y hr

/-- Painting twice hits what either hits: the colour is the same, so the order does not show. -/
theorem trans (h : Painted hit c s t) (h' : Painted hit' c t u) : Painted (fun x y => hit x y ∨ hit' x y) c s u where
  cfg := h'.cfg.trans h.cfg
  pixel x y hr := by
    obtain ⟨coloured, kept⟩ := h.pixel x y hr
    obtain ⟨coloured', kept'⟩ := h'.pixel x y (h.cfg ▸ hr)
    constructor
    · intro either
      by_cases later : hit' x y
      · exact coloured' later
      · rw [kept' later, coloured (either.resolve_right later)]
    · intro neither
      obtain ⟨missed, missed'⟩ := not_or.1 neither
      rw [kept' missed', kept missed]

/-- The pen is no pixel. -/
theorem setPen (h : Painted hit c s t) (p : Option Int) : Painted hit c s (t.setPen p) := ⟨h.cfg, h.pixel⟩

/-- `paint` hits its offsets. -/
theorem paint (x y : Int) (c : Bit) (ps : List (Nat × Nat)) (s : State) :
    Painted (fun px py => ∃ p ∈ ps, px = x + p.1 ∧ py = y + p.2) c s (State.paint x y c ps s) where
  cfg := s.paint_cfg x y c ps
  pixel px py hr := by
    rw [s.px_paint x y c ps hr]
    exact ⟨fun h => if_pos h, fun h => if_neg h⟩

end State.Painted

/-! ### One character (R190, R191, R194) -/

theorem lookupGlyph_eq_rowsDrawn (c : Cfg) (ch : Byte) : lookupGlyph c ch = rowsDrawn c ch := by
  unfold lookupGlyph rowsDrawn
  cases tableFind c.glyph ch <;> rfl

theorem patternBit_eq_one_iff (rows : Rows) (c r : Nat) :
    patternBit rows c r = 1#1 ↔ (rows.toList.getD r 0).getLsbD (7 - c) = true := by
  rw [patternBit, bitAt_eq, rowOf]
  cases (rows.toList.getD r 0#8).getLsbD (7 - c) <;> decide

/-- At scale 0 every block is empty. -/
theorem glyphPixels_scale_zero (bit : Nat → Nat → Bit) : glyphPixels bit 0 = [] := by
  refine List.eq_nil_iff_forall_not_mem.2 fun p hp => ?_
  obtain ⟨r, -, c, -, -, sy, hsy, -⟩ := mem_glyphPixels.1 hp
  exact absurd hsy (Nat.not_lt_zero sy)

/-- The offsets of a pattern, moved to its corner, are its blocks. -/
theorem blockHit_iff {rows : Rows} {gx gy : Int} {scale : Nat} {x y : Int} :
    BlockHit rows gx gy scale x y ↔ ∃ p ∈ glyphPixels (patternBit rows) scale, x = gx + p.1 ∧ y = gy + p.2 := by
  simp only [mem_glyphPixels, patternBit_eq_one_iff]
  constructor
  · rintro ⟨r, hr, c, hc, sy, hsy, sx, hsx, lit, hx, hy⟩
    exact ⟨_, ⟨r, hr, c, hc, lit, sy, hsy, sx, hsx, rfl⟩, hx, hy⟩
  · rintro ⟨_, ⟨r, hr, c, hc, lit, sy, hsy, sx, hsx, rfl⟩, hx, hy⟩
    exact ⟨r, hr, c, hc, sy, hsy, sx, hsx, lit, hx, hy⟩

theorem State.drawGlyph_painted (s : State) (ch : Byte) (x y : Int) (c : Bit) (scale : Nat) :
    Painted (BlockHit (rowsDrawn s.cfg ch) x y scale) c s (s.drawGlyph ch x y c scale) := by
  unfold State.drawGlyph
  rw [lookupGlyph_eq_rowsDrawn]
  exact (Painted.paint x y c _ s).congr fun _ _ => blockHit_iff

/-- Pixel `(x, y)` is a set font pixel of a character whose cell has its corner at `(gx, gy)` (R194). -/
def FontHit (cfg : Cfg) (ch : Byte) (gx gy x y : Int) : Prop :=
  ∃ r < 8, ∃ k < 8, fontBit cfg ch k r = 1 ∧ x = gx + (k : Nat) ∧ y = gy + (r : Nat)

/-- At scale 1 a block is one pixel. -/
theorem fontHit_iff {cfg : Cfg} {ch : Byte} {gx gy x y : Int} :
    FontHit cfg ch gx gy x y ↔ ∃ p ∈ glyphPixels (fontBit cfg ch) 1, x = gx + p.1 ∧ y = gy + p.2 := by
  simp only [mem_glyphPixels]
  constructor
  · rintro ⟨r, hr, k, hk, lit, hx, hy⟩
    exact ⟨(k, r), ⟨r, hr, k, hk, lit, 0, Nat.one_pos, 0, Nat.one_pos, by simp⟩, hx, hy⟩
  · rintro ⟨_, ⟨r, hr, k, hk, lit, sy, hsy, sx, hsx, rfl⟩, hx, hy⟩
    exact ⟨r, hr, k, hk, lit, by omega, by omega⟩

theorem State.drawFontChar_painted (s : State) (ch : Byte) (x y : Int) (c : Bit) :
    Painted (FontHit s.cfg ch x y) c s (s.drawFontChar ch x y c) :=
  (Painted.paint x y c _ s).congr fun _ _ => fontHit_iff

/-- Settles O34: the blocks of the pattern looked up, none of them at scale 0. -/
theorem glyphsPaintsTheBlocksOfThePattern : Obligations.GlyphsPaintsTheBlocksOfThePattern := by
  intro s ch x y c scale
  obtain ⟨rsp, trace, busErr, life⟩ := bodyOf_next_drawing (i := .glyphs ch x y c scale) rfl s
  refine ⟨_, exec_eq_next (.glyphs ch x y c scale) s, rsp, trace, busErr, life,
    (s.drawGlyph_painted ch x.toInt y.toInt c scale.toNat).pixel, ?_⟩
  rintro rfl
  show (s.drawGlyph ch x.toInt y.toInt c 0).fb = s.fb
  rw [State.drawGlyph, glyphPixels_scale_zero, State.paint]

/-! ### The characters of a string (R192 to R194) -/

/-- What holds of some character of a string holds of the first or, one place on, of one after it. -/
theorem exists_char_cons {ch : Byte} {t : List Byte} {P : Nat → Byte → Prop} :
    (∃ i c, (ch :: t)[i]? = some c ∧ P i c) ↔ P 0 ch ∨ ∃ i c, t[i]? = some c ∧ P (i + 1) c := by
  rw [← Nat.or_exists_add_one]
  simp

theorem not_exists_char_nil {P : Nat → Byte → Prop} : ¬ ∃ i c, ([] : List Byte)[i]? = some c ∧ P i c := by simp

theorem textsGlyphX_cons_zero (c : Cfg) (ch : Byte) (t : List Byte) :
    textsGlyphX c (ch :: t) 0 = - textsShift c ch := by
  by_cases point : ch = 0x2E#8 <;> simp [textsGlyphX, textsPenAt, textsShift, dotCode, point]

/-- The characters after the first stand as they would by themselves, moved by its advance (R193). -/
theorem textsGlyphX_cons_succ (c : Cfg) (ch : Byte) (t : List Byte) (i : Nat) :
    textsGlyphX c (ch :: t) (i + 1) = textsAdvance c ch t + textsGlyphX c t i := by
  have head : textsAdvanceAt c (ch :: t) 0 = textsAdvance c ch t := by
    by_cases point : ch = 0x2E#8 <;> simp [textsAdvanceAt, textsAdvance, dotCode, point, List.head?_eq_getElem?]
  have tail : textsAdvanceAt c (ch :: t) ∘ Nat.succ = textsAdvanceAt c t := by
    funext j
    simp [textsAdvanceAt]
  have pen : textsPenAt c (ch :: t) (i + 1) = textsAdvance c ch t + textsPenAt c t i := by
    rw [textsPenAt, List.range_succ_eq_map, List.map_cons, List.map_map, List.sum_cons, head, tail, textsPenAt]
  rw [textsGlyphX, pen, List.getElem?_cons_succ, textsGlyphX, add_sub_assoc]

/-- The TEXTS loop paints each character where the formula puts it from the pen. -/
theorem textsLoop_painted (x y : Int) (t : List Byte) (s : State) :
    State.Painted (fun px py => ∃ i ch, t[i]? = some ch ∧
      BlockHit (rowsDrawn s.cfg ch) (x + s.penPos + textsGlyphX s.cfg t i) y 2 px py) 1 s (textsLoop x y t s) := by
  induction t generalizing s with
  | nil => exact .nothing fun _ _ => not_exists_char_nil
  | cons ch t ih =>
    have drawn := (s.drawGlyph_painted ch (x + s.penPos - textsShift s.cfg ch) y 1 2).setPen
      (some (s.penPos + textsAdvance s.cfg ch t))
    refine (drawn.trans (ih _)).congr fun px py => ?_
    rw [exists_char_cons, drawn.cfg, textsGlyphX_cons_zero, ← sub_eq_add_neg]
    simp only [textsGlyphX_cons_succ, State.penPos, State.setPen_pen, Option.getD_some, add_assoc]

/-- Settles O36: the loop starts with the pen at 0. -/
theorem textsPaintsGlyphsAtTheFormulaPlaces : Obligations.TextsPaintsGlyphsAtTheFormulaPlaces := by
  intro s text x y
  obtain ⟨rsp, -⟩ := bodyOf_next_drawing (i := .texts text x y) rfl s
  have painted := textsLoop_painted x.toInt y.toInt text (s.setPen (some 0))
  simp only [State.penPos, State.setPen_pen, Option.getD_some, add_zero] at painted
  exact ⟨_, exec_eq_next (.texts text x y) s, rsp, rfl, painted.pixel⟩

/-- The TEXT loop paints the cells of the characters eight pixels apart, from the pen. -/
theorem textLoop_painted (x y : Int) (c : Bit) (t : List Byte) (s : State) :
    State.Painted (fun px py => ∃ i ch, t[i]? = some ch ∧
      FontHit s.cfg ch (x + s.penPos + (8 * i : Nat)) y px py) c s (textLoop x y c t s) := by
  induction t generalizing s with
  | nil => exact .nothing fun _ _ => not_exists_char_nil
  | cons ch t ih =>
    have drawn := (s.drawFontChar_painted ch (x + s.penPos) y c).setPen (some (s.penPos + 8))
    have place (i : Nat) : x + s.penPos + (8 * (i + 1) : Nat) = x + (s.penPos + 8) + (8 * i : Nat) := by omega
    refine (drawn.trans (ih _)).congr fun px py => ?_
    rw [exists_char_cons, drawn.cfg]
    simp only [place, Nat.mul_zero, Nat.cast_zero, add_zero]
    rfl

/-- Settles O37: the loop starts with the pen at 0. -/
theorem textPaintsTheFontEightPixelsApart : Obligations.TextPaintsTheFontEightPixelsApart := by
  intro s text x y c
  obtain ⟨rsp, trace, busErr, life⟩ := bodyOf_next_drawing (i := .text text x y c) rfl s
  have painted := textLoop_painted x.toInt y.toInt c text (s.setPen (some 0))
  simp only [FontHit, State.penPos, State.setPen_pen, Option.getD_some, add_zero, add_assoc, ← Nat.cast_add] at painted
  refine ⟨_, exec_eq_next (.text text x y c) s, rsp, rfl, trace, busErr, life, painted.pixel, ?_⟩
  rintro rfl
  rfl

end Sys2Proof.Machine
end

section
/-! PROOFS. The obligation of 60_exceptions.md: what a step in FAULT can change. -/
namespace Sys2Proof.Machine

/-- Settles O11: a read in FAULT moves the read-back data and the draw counter, a byte offered is passed over, a pause
and an idle host leave the state; no byte is taken and nothing runs. -/
theorem faultChangesNothingButTheReadPort : Obligations.FaultChangesNothingButTheReadPort := by
  intro s s' ph h noReset
  obtain ⟨-, hc⟩ := step_next_cases h
  cases hc with
  | reset rest host _ => exact absurd host (noReset rest)
  | read i rest _ eq => rw [eq, (State.serveRead_eq _ i).1]; rfl
  | deaf b rest _ _ eq | pause rest _ _ eq | idle _ _ eq => rw [eq]; rfl
  | accept b rest _ ready _ => rcases ready with ready | ready <;> exact nomatch ph.symm.trans ready
  | run i rest _ exec _ _ _ => exact nomatch ph.symm.trans exec

end Sys2Proof.Machine
end
